-- ==== Sys2Proof/Word.lean ====
section
/-! DEFINITION. The byte and word types of AES-CORE (00_scope.md R8, R9) and the two small shapes its
cipher is written over: the 4-byte word of the key schedule (R420) and the 4×4 byte matrix (R440). -/

namespace Sys2Proof

/-- An 8-bit unsigned value, bit 0 the least significant (R9). -/
abbrev Byte := BitVec 8

/-- A 32-bit register or bus value (R8), and a 32-bit SHA-256 word (R13). -/
abbrev Word := BitVec 32

/-- A 16-byte block, byte 0 first (R6 BLOCK_BYTES). -/
abbrev Block := Vector Byte 16

/-- A 32-byte SHA-256 digest or tag (R6 TAG_BYTES). -/
abbrev Digest := Vector Byte 32

/-- Four bytes, byte 0 first: a word of the key schedule (R420), and a column of the cipher's
matrix, top to bottom (R409, R440). -/
structure Word4 where
  b0 : Byte
  b1 : Byte
  b2 : Byte
  b3 : Byte
deriving DecidableEq, Repr

/-- A 4×4 matrix of bytes held as its four columns: byte `s[r][c]` of R440 and of a round-key matrix
`RKM(i)[r][c]` (R423) is byte r of column c. -/
structure Matrix where
  c0 : Word4
  c1 : Word4
  c2 : Word4
  c3 : Word4
deriving DecidableEq, Repr

/-- The four zero bytes. -/
def Word4.zero : Word4 := ⟨0, 0, 0, 0⟩

end Sys2Proof
end

