-- ==== Sys2Proof/Syntax.lean ====
section
/-! DEFINITION. The commands of AES-CORE, its instructions: one constructor for each row of
spec/opcode_table.json (30_encoding.md R301). Operands are fixed registers and windows, so the only
field a command word carries is HS of AE_ENCRYPT (R303, R304). -/

namespace Sys2Proof

/-- The ten commands (R301). -/
inductive Instr where
  /-- KEY_EXPAND (R425). -/
  | keyExpand
  /-- ENC_BLOCK (R455). -/
  | encBlock
  /-- DEC_BLOCK (R456). -/
  | decBlock
  /-- CBC_ENC (R480). -/
  | cbcEnc
  /-- CBC_DEC (R481). -/
  | cbcDec
  /-- KDF (R520). -/
  | kdf
  /-- TAG_COMPUTE (R540). -/
  | tagCompute
  /-- TAG_VERIFY (R541). -/
  | tagVerify
  /-- AE_ENCRYPT (R562); `hs` is the HS bit: the salt is the SALT window when it is set, an entropy
  draw when it is not. -/
  | aeEncrypt (hs : Bool)
  /-- AE_DECRYPT (R565). -/
  | aeDecrypt
deriving DecidableEq, Repr

end Sys2Proof
end

