-- ==== Sys2Proof/WellFormed.lean ====
section
/-! DEFINITION. Which command words are legal (30_encoding.md R302) and which instruction terms are
well formed. The fields of a command word are those of R300. -/

namespace Sys2Proof

/-- OP, bits [7:0] of a command word (R300). -/
def CommandWord.op (w : Word) : Byte := w.extractLsb' 0 8

/-- HS, bit [8] of a command word (R300). -/
def CommandWord.hs (w : Word) : Bool := w.getLsbD 8

/-- RSV, bits [31:9] of a command word (R300). -/
def CommandWord.rsv (w : Word) : BitVec 23 := w.extractLsb' 9 23

/-- The first check of R302: OP is one of 0x01 to 0x0A. -/
def CommandWord.opAssigned (w : Word) : Bool :=
  decide (1 ≤ (CommandWord.op w).toNat) && decide ((CommandWord.op w).toNat ≤ 0x0A)

/-- The second check of R302: RSV is 0. -/
def CommandWord.rsvZero (w : Word) : Bool := CommandWord.rsv w == 0

/-- The third check of R302: HS is 0, or OP is 0x09. -/
def CommandWord.hsAllowed (w : Word) : Bool := !CommandWord.hs w || CommandWord.op w == 0x09

/-- `legal(v)` of R302: exactly when all three checks hold. -/
def CommandWord.legal (w : Word) : Bool :=
  CommandWord.opAssigned w && CommandWord.rsvZero w && CommandWord.hsAllowed w

/-- Every term of `Instr` is well formed: a command has no register numbers and no immediates (R303),
and AE_ENCRYPT exists with HS = 0 and with HS = 1 (R301). What can be ill formed is a command word. -/
def Instr.wellFormed : Instr → Bool
  | .keyExpand => true
  | .encBlock => true
  | .decBlock => true
  | .cbcEnc => true
  | .cbcDec => true
  | .kdf => true
  | .tagCompute => true
  | .tagVerify => true
  | .aeEncrypt _ => true
  | .aeDecrypt => true

end Sys2Proof
end

