-- ==== Sys2Proof/Decode.lean ====
section
/-! DEFINITION. The decoder of command words and its inverse (30_encoding.md R300 to R302, R305). The
decoder is total on every 32-bit word and names why it rejects one; it never reads anything but the
word (R305). There is no byte stream to decode: a command is one bus word (R219, R300; log entry 14). -/

namespace Sys2Proof

/-- Why a word is illegal: the check of R302 that fails first. -/
inductive DecodeError where
  /-- OP is 0x00 or 0x0B to 0xFF (R301, I13). -/
  | reservedOp
  /-- RSV, bits [31:9], is not 0 (R300, I13). -/
  | reservedBits
  /-- HS is 1 with an OP other than AE_ENCRYPT's (R300, I13). -/
  | saltBit
deriving DecidableEq, Repr

/-- The command an OP value selects, with the HS bit for AE_ENCRYPT (R301). -/
def decodeOp (op : Byte) (hs : Bool) : Option Instr :=
  match op.toNat with
  | 0x01 => some .keyExpand
  | 0x02 => some .encBlock
  | 0x03 => some .decBlock
  | 0x04 => some .cbcEnc
  | 0x05 => some .cbcDec
  | 0x06 => some .kdf
  | 0x07 => some .tagCompute
  | 0x08 => some .tagVerify
  | 0x09 => some (.aeEncrypt hs)
  | 0x0A => some .aeDecrypt
  | _ => none

/-- The decoder of a command word (R301, R302). -/
def decodeWord (w : Word) : Except DecodeError Instr :=
  match decodeOp (CommandWord.op w) (CommandWord.hs w) with
  | none => .error .reservedOp
  | some i =>
    if CommandWord.rsv w ≠ 0 then .error .reservedBits
    else if CommandWord.hs w = true ∧ CommandWord.op w ≠ 0x09 then .error .saltBit
    else .ok i

/-- The OP value of a command (R301). -/
def Instr.op : Instr → Byte
  | .keyExpand => 0x01
  | .encBlock => 0x02
  | .decBlock => 0x03
  | .cbcEnc => 0x04
  | .cbcDec => 0x05
  | .kdf => 0x06
  | .tagCompute => 0x07
  | .tagVerify => 0x08
  | .aeEncrypt _ => 0x09
  | .aeDecrypt => 0x0A

/-- The HS bit of a command's word (R301). -/
def Instr.hs : Instr → Bool
  | .aeEncrypt hs => hs
  | _ => false

/-- The word of a command: RSV = 0, HS, OP (R300, R301). -/
def encode (i : Instr) : Word := (0#23 ++ BitVec.ofBool i.hs ++ i.op : BitVec (23 + 1 + 8))

/-- The instruction the decoder reads from the bits of one opcode-table row (log entry 14). The
table's bit i is bit i of the CMD word (R206, R300); bits above `nbits` are 0. -/
def decodeTableWord (nbits w : Nat) : Option Instr :=
  match decodeWord (BitVec.ofNat 32 (w % 2 ^ min nbits 32)) with
  | .ok i => some i
  | .error _ => none

end Sys2Proof
end

