-- ==== Sys2Proof/Machine/Bytes.lean ====
section
/-! DEFINITION. Byte-order, byte-string and block helpers (00_scope.md R9, R14; 20_memory.md R205, R207). -/

namespace Sys2Proof.Machine

/-- The word whose byte lanes, lowest first, hold four bytes (R205). -/
def packLE (b0 b1 b2 b3 : Byte) : Word := (b3 ++ b2 ++ b1 ++ b0 : BitVec (8 + 8 + 8 + 8))

/-- Byte lane i of a bus word: `v[8i+7:8i]` (R205). -/
def lane (v : Word) (i : Nat) : Byte := v.extractLsb' (8 * i) 8

/-- The big-endian 32-bit word of four bytes, the first most significant (R501). -/
def packBE (b0 b1 b2 b3 : Byte) : Word := packLE b3 b2 b1 b0

/-- BE32: four bytes, most significant first (R14). -/
def be32 (w : Word) : List Byte := [lane w 3, lane w 2, lane w 1, lane w 0]

/-- BE64: the 8-byte big-endian encoding of a 64-bit value, given as a number (R14; log entry 23). -/
def be64 (n : Nat) : List Byte := be32 (BitVec.ofNat 32 (n / 2 ^ 32)) ++ be32 (BitVec.ofNat 32 n)

/-- The first n bytes of a string as a fixed-size value; callers pass strings of at least n bytes. -/
def firstBytes (n : Nat) (l : List Byte) : Vector Byte n := Vector.ofFn fun i => l.getD i.val 0

/-- `a ^ b` on two byte strings of one fixed length (R9). -/
def xorBytes {n : Nat} (a b : Vector Byte n) : Vector Byte n := Vector.zipWith (· ^^^ ·) a b

/-- `t ^ u`: byte-wise exclusive-or of two 4-byte words (R421). -/
def xorWord4 (t u : Word4) : Word4 := ⟨t.b0 ^^^ u.b0, t.b1 ^^^ u.b1, t.b2 ^^^ u.b2, t.b3 ^^^ u.b3⟩

/-- `m[16j : 16j+16)` as a block (R474, R475). -/
def blockAt (m : List Byte) (j : Nat) : Block := firstBytes 16 (m.drop (16 * j))

/-- The whole blocks of a string whose length is a multiple of 16 (R474, R475). -/
def blocksOf (m : List Byte) : List Block := (List.range (m.length / 16)).map (blockAt m)

/-- The concatenation of blocks (R474). -/
def joinBlocks (bs : List Block) : List Byte := bs.flatMap Vector.toList

end Sys2Proof.Machine
end

