-- ==== Sys2Proof/Config.lean ====
section
/-! DEFINITION. What an implementation fixes (00_scope.md R7) and the values the spec leaves free
(70_reset_and_hazards.md R702, 00_scope.md R16). A free value is an opaque constant: nothing in Lean
can say which value it is. -/

namespace Sys2Proof

/-- The hardware parameters of R7 that a step depends on. DOUT_BYTES is not independent, and LATENCY is
not observed (R18, R720). -/
structure Params where
  /-- BASE: the bus address of offset 0 (R7, R201). -/
  base : Nat
  /-- DIN_BYTES: the capacity of the DIN window (R7, R124). -/
  dinBytes : Nat
deriving DecidableEq, Repr

/-- DOUT_BYTES = DIN_BYTES + 64 (R7). -/
def Params.doutBytes (p : Params) : Nat := p.dinBytes + 64

/-- BASE is aligned to 0x40000, and DIN_BYTES is a multiple of 16 from 64 to 65472 (R7). -/
def Params.wf (p : Params) : Bool :=
  p.base % 0x40000 == 0 && p.dinBytes % 16 == 0 && decide (64 ≤ p.dinBytes) && decide (p.dinBytes ≤ 65472)

/-- The place of the aperture in units of its own size: OPEN, the platform's choice (R7, R201, I7).
DESIGN CHOICE, safe (log entry 3). -/
opaque Config.baseSlot : Nat

/-- BASE, aligned to 0x40000 by its form (R7). -/
def Config.base : Nat := 0x40000 * Config.baseSlot

/-- The parameters of the reference configuration: DIN_BYTES = 4096 (R7), BASE left open. -/
def Params.reference : Params := ⟨Config.base, 4096⟩

/-- Byte k of DIN after the reset numbered `epoch`, while nothing has written it (R702, I1).
DESIGN CHOICE, safe: a free value (log entry 5). -/
opaque Config.dinFree : (epoch k : Nat) → Byte

/-- Byte k of DOUT after the reset numbered `epoch`, while nothing has written it (R702, I1).
DESIGN CHOICE, safe: a free value (log entry 5). -/
opaque Config.doutFree : (epoch k : Nat) → Byte

/-- The 16 bytes of the n-th entropy draw, under no law (R12, R16, I3).
DESIGN CHOICE, safe: a free value (log entry 7). -/
opaque Config.entropyDraw : (n : Nat) → Block

end Sys2Proof
end

