-- ==== Sys2Proof/Machine/State.lean ====
section
/-! DEFINITION. The state of AES-CORE (10_state.md), the reasons a step can stop, and the state after
reset (70_reset_and_hazards.md R701). -/

namespace Sys2Proof.Machine

/-- SEQ, the engine sequencer's control state: IDLE, or BUSY with the latched command word (R100, R132). -/
inductive Seq where
  | idle
  | busy (w : Word)
deriving DecidableEq, Repr

/-- The bus response of a host access (R11). -/
inductive Resp where
  | okay
  | error
deriving DecidableEq, Repr

/-- One host access at a bus address (R11); `bytes` is the access width in bytes. The data of a write
wider than 32 bits has no effect (R203), so 32 bits of it are kept (log entry 16). -/
inductive Access where
  | read (addr bytes : Nat)
  | write (addr bytes : Nat) (data : Word)
deriving DecidableEq, Repr

/-- What the host gets for one access: a response, and for a read its data (R11, R18). -/
inductive Reply where
  | read (resp : Resp) (data : Word)
  | write (resp : Resp)
deriving DecidableEq, Repr

/-- Whose step comes next (R15): a host access arrives, the sequencer takes its completion step if it is
busy, or RST is asserted. The entropy source acts inside a completion step (R611). -/
inductive Turn where
  | host (a : Access)
  | sequencer
  | reset
deriving DecidableEq, Repr

/-- The registers of the map (R101). -/
inductive Register where
  | id
  | cmd
  | status
  | ie
  | keyLen
  | msgLen
  | iter
  | outLen
  | info
deriving DecidableEq, Repr

/-- The windows of the map (R101). -/
inductive Window where
  | key
  | iv
  | salt
  | tag
  | blockIn
  | blockOut
  | dkCk
  | dkAk
  | dkIv
  | din
  | dout
deriving DecidableEq, Repr

/-- What an aperture offset names (R101): a register, byte k of a window, or nothing. -/
inductive Target where
  | register (r : Register)
  | window (w : Window) (k : Nat)
  | reserved
deriving DecidableEq, Repr

/-- The sub-causes of a contract violation (R602). -/
inductive Detail where
  | noKeySchedule
  | messageTooLong
  | badCiphertextLength
  | malformedBlob
  | zeroIterations
deriving DecidableEq, Repr

/-- The errors a command raises (R601); ILLEGAL_COMMAND is no command's (R606, R612). -/
inductive CmdError where
  | emptyKey
  | emptyMessage
  | invalidKeyLength
  | unsupportedMessageType
  | integrityFailure
  | paddingError
  | contractViolation (d : Detail)
deriving DecidableEq, Repr

/-- The bytes of a large window that were written since the last reset, by byte index, in ONE canonical
form: indexes strictly rising. An unlisted index holds no written value (log entry 6). -/
abbrev Memory := List Host.Cell

/-- The canonical form: the indexes rise strictly. -/
def Memory.wf : Memory → Bool
  | [] => true
  | [_] => true
  | (a, _) :: (b, x) :: rest => decide (a < b) && Memory.wf ((b, x) :: rest)

/-- The round-key store: 60 words of 4 bytes (R130). -/
abbrev RoundKeys := Vector Word4 60

/-- Everything the spec gives the machine (10_state.md), the parameters it is built with (R7), and the
model's own four fields at the end. STATUS.BUSY is `seq` (R100); ID, CMD, INFO and IRQ hold no value of
their own (R102, R103, R116, R134). -/
structure State where
  /-- BASE and DIN_BYTES (R7). No step changes them. -/
  params : Params
  /-- SEQ (R100). -/
  seq : Seq
  /-- STATUS.DONE (R106). -/
  done : Bool
  /-- STATUS.KS_VALID (R107). -/
  ksValid : Bool
  /-- STATUS.BWERR (R108). -/
  bwerr : Bool
  /-- STATUS.ERR_CODE (R109). -/
  errCode : BitVec 4
  /-- STATUS.ERR_DETAIL (R110). -/
  errDetail : BitVec 4
  /-- IE.DONE_IE (R111). -/
  doneIe : Bool
  /-- IE.BWERR_IE (R111). -/
  bwerrIe : Bool
  /-- KEY_LEN (R112). -/
  keyLen : Word
  /-- MSG_LEN (R113). -/
  msgLen : Word
  /-- ITER (R114). -/
  iter : Word
  /-- OUT_LEN (R115). -/
  outLen : Word
  /-- KEY (R117). -/
  key : Vector Byte 32
  /-- IV (R118). -/
  iv : Block
  /-- SALT (R119). -/
  salt : Block
  /-- TAG (R120). -/
  tag : Digest
  /-- BLOCK_IN (R121). -/
  blockIn : Block
  /-- BLOCK_OUT (R122). -/
  blockOut : Block
  /-- DK_CK (R123). -/
  dkCk : Block
  /-- DK_AK (R123). -/
  dkAk : Block
  /-- DK_IV (R123). -/
  dkIv : Block
  /-- The written bytes of DIN (R124). -/
  din : Memory
  /-- The written bytes of DOUT (R125). -/
  dout : Memory
  /-- RK (R130). -/
  rk : RoundKeys
  /-- NR (R116, R130). -/
  nr : BitVec 8
  /-- The model's own: the agents' pending turns, oldest first (log entry 1). -/
  turns : List Turn
  /-- The model's own: the reply to the access the last step performed (log entry 13). -/
  reply : Option Reply
  /-- The model's own: how many entropy draws were taken (log entry 7). -/
  draws : Nat
  /-- The model's own: how many reset steps were taken (log entry 5). -/
  epoch : Nat
deriving DecidableEq, Repr

/-- The reasons the machine can stop with a fault. -/
inductive Fault where
  /-- Raised by the sequencer's step when the latched word is illegal. The spec never latches such a word
  (R302, R610, R612); no state that meets `State.Inv` raises it. Safe (log entry 10). -/
  | latchedWordIllegal
deriving DecidableEq, Repr

/-- The reasons the model performs no step. -/
inductive Refusal where
  /-- Raised by `exec` for an instruction that has no meaning yet. Safe. -/
  | notModelled (mnemonic : String)
  /-- Raised by the host's step for an access outside the aperture: "Accesses outside that range do not
  reach AES-CORE; the platform decides them" (R201, I9). Safe (log entry 9). -/
  | outsideAperture
deriving DecidableEq, Repr

/-- The state right after reset (R701), with the reference parameters (R7) and nothing pending. DIN and
DOUT hold free bytes (R702): nothing is listed. The last four fields are the model's own
(DESIGN CHOICE, log entry 8). -/
def State.reset : State where
  params := Params.reference
  seq := .idle
  done := false
  ksValid := false
  bwerr := false
  errCode := 0
  errDetail := 0
  doneIe := false
  bwerrIe := false
  keyLen := 0
  msgLen := 0
  iter := 100000
  outLen := 0
  key := Vector.replicate 32 0
  iv := Vector.replicate 16 0
  salt := Vector.replicate 16 0
  tag := Vector.replicate 32 0
  blockIn := Vector.replicate 16 0
  blockOut := Vector.replicate 16 0
  dkCk := Vector.replicate 16 0
  dkAk := Vector.replicate 16 0
  dkIv := Vector.replicate 16 0
  din := []
  dout := []
  rk := Vector.replicate 60 Word4.zero
  nr := 0
  turns := []
  reply := none
  draws := 0
  epoch := 0

end Sys2Proof.Machine
end

