-- ==== Sys2Proof/Machine/Flags.lean ====
section
/-! DEFINITION. The STATUS, IE and INFO words, the IRQ level and the error codes (10_state.md R104 to R111,
R116, R134; 60_exceptions.md R601, R602). AES-CORE has no other flags (R137). -/

namespace Sys2Proof.Machine

/-- STATUS.BUSY = 1 exactly when SEQ is BUSY (R100, R105). -/
def State.busy (s : State) : Bool :=
  match s.seq with
  | .idle => false
  | .busy _ => true

/-- The STATUS word: ERR_DETAIL [15:12], ERR_CODE [11:8], BWERR [3], KS_VALID [2], DONE [1], BUSY [0],
reserved bits 0 (R104). -/
def State.statusWord (s : State) : Word :=
  (0#16 ++ s.errDetail ++ s.errCode ++ 0#4 ++ BitVec.ofBool s.bwerr ++ BitVec.ofBool s.ksValid ++
    BitVec.ofBool s.done ++ BitVec.ofBool s.busy : BitVec (16 + 4 + 4 + 4 + 1 + 1 + 1 + 1))

/-- The IE word: BWERR_IE [1], DONE_IE [0], reserved bits 0 (R111). -/
def State.ieWord (s : State) : Word :=
  (0#30 ++ BitVec.ofBool s.bwerrIe ++ BitVec.ofBool s.doneIe : BitVec (30 + 1 + 1))

/-- The INFO word: DIN_BLOCKS [31:16], reserved bits 0, NR [7:0] (R116). -/
def State.infoWord (s : State) : Word :=
  (BitVec.ofNat 16 (s.params.dinBytes / 16) ++ 0#8 ++ s.nr : BitVec (16 + 8 + 8))

/-- The ID word: "AES" and revision 1 (R102). -/
def idWord : Word := 0x41455301

/-- The IRQ level: (DONE ∧ DONE_IE) ∨ (BWERR ∧ BWERR_IE) (R134, R622). -/
def State.irq (s : State) : Bool := (s.done && s.doneIe) || (s.bwerr && s.bwerrIe)

/-- The ERR_CODE of an error (R601). -/
def CmdError.code : CmdError → BitVec 4
  | .emptyKey => 1
  | .emptyMessage => 2
  | .invalidKeyLength => 3
  | .unsupportedMessageType => 4
  | .integrityFailure => 5
  | .paddingError => 6
  | .contractViolation _ => 7

/-- The ERR_DETAIL of an error: a sub-cause with code 7, else 0 (R602). -/
def CmdError.detail : CmdError → BitVec 4
  | .contractViolation .noKeySchedule => 1
  | .contractViolation .messageTooLong => 2
  | .contractViolation .badCiphertextLength => 3
  | .contractViolation .malformedBlob => 4
  | .contractViolation .zeroIterations => 5
  | .emptyKey => 0
  | .emptyMessage => 0
  | .invalidKeyLength => 0
  | .unsupportedMessageType => 0
  | .integrityFailure => 0
  | .paddingError => 0

end Sys2Proof.Machine
end

