-- ==== Sys2Proof/Machine/Ops.lean ====
section
/-! DEFINITION. The shared operations: the sparse byte memories, the windows by byte and by bus word
(20_memory.md R205), accept and rejection of a command (60_exceptions.md R610, R612), completion, which
takes an error (R611, R604, R623), its acknowledgement (R104, R623), and reset (70_reset_and_hazards.md R700). -/

namespace Sys2Proof.Machine

/-- The byte written at index k since the last reset, if any. -/
def Memory.lookup : Memory → Nat → Option Byte
  | [], _ => none
  | (a, b) :: rest, k => if a = k then some b else Memory.lookup rest k

/-- Byte k written; the other indexes and the rising order are kept. -/
def Memory.store : Memory → Nat → Byte → Memory
  | [], k, v => [(k, v)]
  | (a, b) :: rest, k, v =>
    if k < a then (k, v) :: (a, b) :: rest
    else if k = a then (k, v) :: rest
    else (a, b) :: Memory.store rest k v

/-- A byte string written from index k on. -/
def Memory.storeFrom : Memory → Nat → List Byte → Memory
  | m, _, [] => m
  | m, k, b :: bs => Memory.storeFrom (m.store k b) (k + 1) bs

/-- `W(DIN)[k]`: the byte written since the last reset, else the free byte that reset left (R124, R702). -/
def State.dinByte (s : State) (k : Nat) : Byte := (s.din.lookup k).getD (Config.dinFree s.epoch k)

/-- `W(DOUT)[k]`, likewise (R125, R702). -/
def State.doutByte (s : State) (k : Nat) : Byte := (s.dout.lookup k).getD (Config.doutFree s.epoch k)

/-- The first offset of a window (R101). -/
def Window.start : Window → Nat
  | .key => 0x040
  | .iv => 0x060
  | .salt => 0x070
  | .tag => 0x080
  | .blockIn => 0x0A0
  | .blockOut => 0x0B0
  | .dkCk => 0x0C0
  | .dkAk => 0x0D0
  | .dkIv => 0x0E0
  | .din => 0x10000
  | .dout => 0x20000

/-- The size of a window in bytes (R101). -/
def Window.size (p : Params) : Window → Nat
  | .key => 32
  | .iv => 16
  | .salt => 16
  | .tag => 32
  | .blockIn => 16
  | .blockOut => 16
  | .dkCk => 16
  | .dkAk => 16
  | .dkIv => 16
  | .din => p.dinBytes
  | .dout => p.doutBytes

/-- Whether a host read gives the window's bytes: every window but KEY (R101, R117). -/
def Window.hostReads : Window → Bool
  | .key => false
  | .iv | .salt | .tag | .blockIn | .blockOut | .dkCk | .dkAk | .dkIv | .din | .dout => true

/-- Whether a host write stores into the window: every window but BLOCK_OUT and DOUT (R101, R209). -/
def Window.hostWrites : Window → Bool
  | .blockOut | .dout => false
  | .key | .iv | .salt | .tag | .blockIn | .dkCk | .dkAk | .dkIv | .din => true

/-- `W(NAME)[k]` (R10); 0 past a small window's end, which no access reaches (R215). -/
def State.windowByte (s : State) (w : Window) (k : Nat) : Byte :=
  match w with
  | .key => (s.key[k]?).getD 0
  | .iv => (s.iv[k]?).getD 0
  | .salt => (s.salt[k]?).getD 0
  | .tag => (s.tag[k]?).getD 0
  | .blockIn => (s.blockIn[k]?).getD 0
  | .blockOut => (s.blockOut[k]?).getD 0
  | .dkCk => (s.dkCk[k]?).getD 0
  | .dkAk => (s.dkAk[k]?).getD 0
  | .dkIv => (s.dkIv[k]?).getD 0
  | .din => s.dinByte k
  | .dout => s.doutByte k

/-- `W(NAME)[k] <- b` (R10); a byte past the window's end is not written (R215). -/
def State.setWindowByte (w : Window) (k : Nat) (b : Byte) (s : State) : State :=
  match w with
  | .key => { s with key := s.key.setIfInBounds k b }
  | .iv => { s with iv := s.iv.setIfInBounds k b }
  | .salt => { s with salt := s.salt.setIfInBounds k b }
  | .tag => { s with tag := s.tag.setIfInBounds k b }
  | .blockIn => { s with blockIn := s.blockIn.setIfInBounds k b }
  | .blockOut => { s with blockOut := s.blockOut.setIfInBounds k b }
  | .dkCk => { s with dkCk := s.dkCk.setIfInBounds k b }
  | .dkAk => { s with dkAk := s.dkAk.setIfInBounds k b }
  | .dkIv => { s with dkIv := s.dkIv.setIfInBounds k b }
  | .din => if k < s.params.dinBytes then { s with din := s.din.store k b } else s
  | .dout => if k < s.params.doutBytes then { s with dout := s.dout.store k b } else s

/-- The bus word at byte index k of a window, byte lanes little-endian (R205). -/
def State.windowWord (s : State) (w : Window) (k : Nat) : Word :=
  packLE (s.windowByte w k) (s.windowByte w (k + 1)) (s.windowByte w (k + 2)) (s.windowByte w (k + 3))

/-- A bus word stored at byte index k of a window: all four bytes (R205). -/
def State.setWindowWord (w : Window) (k : Nat) (v : Word) (s : State) : State :=
  (((s.setWindowByte w k (lane v 0)).setWindowByte w (k + 1) (lane v 1)).setWindowByte w (k + 2)
    (lane v 2)).setWindowByte w (k + 3) (lane v 3)

/-- A legal command written while IDLE is accepted (R610). -/
def State.accept (v : Word) (s : State) : State :=
  { s with seq := .busy v, done := false, errCode := 0, errDetail := 0 }

/-- An illegal word written while IDLE completes at once with ERR_CODE 8 (R612). -/
def State.rejectCommand (s : State) : State := { s with done := true, errCode := 8, errDetail := 0 }

/-- The end of every completion step (R611): the outcome recorded, BUSY <- 0, DONE <- 1, SEQ <- IDLE.
This is AES-CORE's taking of an exception: it saves nothing else and goes nowhere (R623). -/
def State.finish (code detail : BitVec 4) (s : State) : State :=
  { s with seq := .idle, done := true, errCode := code, errDetail := detail }

/-- RK, NR and KS_VALID cleared, as at the completion of every AE command (R566). -/
def State.clearSchedule (s : State) : State :=
  { s with rk := Vector.replicate 60 Word4.zero, nr := 0, ksValid := false }

/-- `complete(v)` of R611 from a command's result, its state with every output committed or the error it
raises: `onError` is what a failure still does and `always` what both do (R604). -/
def State.completeWith (onError always : State → State) (s : State) : Except CmdError State → State
  | .ok t => (always t).finish 0 0
  | .error e => (always (onError s)).finish e.code e.detail

/-- Completion of KEY_EXPAND, ENC_BLOCK, DEC_BLOCK, KDF, TAG_COMPUTE and TAG_VERIFY: a failure writes
nothing but STATUS (R603). -/
def State.complete (s : State) (r : Except CmdError State) : State := s.completeWith id id r

/-- Completion of CBC_ENC and CBC_DEC: a failure sets OUT_LEN <- 0 (R604). -/
def State.completeCbc (s : State) (r : Except CmdError State) : State :=
  s.completeWith (fun s => { s with outLen := 0 }) id r

/-- Completion of AE_ENCRYPT and AE_DECRYPT: a failure sets OUT_LEN <- 0, and RK, NR and KS_VALID are
cleared always (R604, R566). -/
def State.completeAe (s : State) (r : Except CmdError State) : State :=
  s.completeWith (fun s => { s with outLen := 0 }) State.clearSchedule r

/-- A host write of v to STATUS: DONE is cleared if v[1] = 1, BWERR if v[3] = 1, all else is ignored
(R104). Clearing DONE is AES-CORE's return from an exception (R623); ERR_CODE and ERR_DETAIL stay (R106). -/
def State.acknowledge (v : Word) (s : State) : State :=
  { s with done := s.done && !v.getLsbD 1, bwerr := s.bwerr && !v.getLsbD 3 }

/-- A host write of v to IE: bits [1:0] are stored (R111, R209). -/
def State.setIe (v : Word) (s : State) : State := { s with doneIe := v.getLsbD 0, bwerrIe := v.getLsbD 1 }

/-- A command's output in DOUT: `W(DOUT)[0:len) <- bs` and OUT_LEN <- len (R115, R125). -/
def State.writeOutput (bs : List Byte) (s : State) : State :=
  { s with dout := s.dout.storeFrom 0 bs, outLen := BitVec.ofNat 32 bs.length }

/-- Reset as one atomic step (R700, R701): every field at its reset value but the parameters, which are
no state; DIN and DOUT hold new free bytes (R702), and draws already taken are not drawn again (I23). -/
def State.applyReset (s : State) : State :=
  { State.reset with params := s.params, turns := s.turns, draws := s.draws, epoch := s.epoch + 1 }

end Sys2Proof.Machine
end

