-- ==== Sys2Proof/Machine/Bus.lean ====
section
/-! DEFINITION. The host bus: the address map (10_state.md R101) and host accesses while IDLE and while BUSY
(20_memory.md R201 to R213). -/

namespace Sys2Proof.Machine

/-- The size of the aperture (R200). -/
def apertureBytes : Nat := 0x40000

/-- The register at an offset, if one is there (R101). -/
def registerAt (off : Nat) : Option Register :=
  match off with
  | 0x000 => some .id
  | 0x004 => some .cmd
  | 0x008 => some .status
  | 0x00C => some .ie
  | 0x010 => some .keyLen
  | 0x014 => some .msgLen
  | 0x018 => some .iter
  | 0x01C => some .outLen
  | 0x020 => some .info
  | _ => none

/-- The windows in the order of the map (R101). -/
def windowMap : List Window :=
  [.key, .iv, .salt, .tag, .blockIn, .blockOut, .dkCk, .dkAk, .dkIv, .din, .dout]

/-- Whether an offset falls into a window (R101). -/
def Window.holds (p : Params) (off : Nat) (w : Window) : Bool :=
  decide (w.start ≤ off) && decide (off < w.start + w.size p)

/-- What an aligned offset names; every other offset is reserved (R101). -/
def targetAt (p : Params) (off : Nat) : Target :=
  match registerAt off with
  | some r => .register r
  | none =>
    match windowMap.find? (Window.holds p off) with
    | some w => .window w (off - w.start)
    | none => .reserved

/-- The value of a register, which CMD does not have (R102 to R116). -/
def State.registerValue (s : State) (r : Register) : Word :=
  match r with
  | .id => idWord
  | .cmd => 0
  | .status => s.statusWord
  | .ie => s.ieWord
  | .keyLen => s.keyLen
  | .msgLen => s.msgLen
  | .iter => s.iter
  | .outLen => s.outLen
  | .info => s.infoWord

/-- The data of a host read while IDLE (R209). -/
def State.readIdle (s : State) (t : Target) : Word :=
  match t with
  | .register r => s.registerValue r
  | .window w k => if w.hostReads then s.windowWord w k else 0
  | .reserved => 0

/-- The data of a host read while BUSY: ID, STATUS and IE, else 0 (R210). -/
def State.readBusy (s : State) (t : Target) : Word :=
  match t with
  | .register .id => s.registerValue .id
  | .register .status => s.registerValue .status
  | .register .ie => s.registerValue .ie
  | _ => 0

/-- The data of a host read at an aligned offset (R209, R210). -/
def State.readWord (s : State) (off : Nat) : Word :=
  match s.seq with
  | .idle => s.readIdle (targetAt s.params off)
  | .busy _ => s.readBusy (targetAt s.params off)

/-- A host write to CMD while IDLE: a legal word is accepted, an illegal one is rejected (R103, R610, R612). -/
def State.issue (v : Word) (s : State) : State :=
  match decodeWord v with
  | .ok _ => s.accept v
  | .error _ => s.rejectCommand

/-- A host write while IDLE (R209). -/
def State.writeIdle (t : Target) (v : Word) (s : State) : State :=
  match t with
  | .register .id => s
  | .register .cmd => s.issue v
  | .register .status => s.acknowledge v
  | .register .ie => s.setIe v
  | .register .keyLen => { s with keyLen := v }
  | .register .msgLen => { s with msgLen := v }
  | .register .iter => { s with iter := v }
  | .register .outLen => s
  | .register .info => s
  | .window w k => if w.hostWrites then s.setWindowWord w k v else s
  | .reserved => s

/-- A host write while BUSY: STATUS and IE act as while IDLE, every other write is dropped and sets
BWERR (R211). -/
def State.writeBusy (t : Target) (v : Word) (s : State) : State :=
  match t with
  | .register .status => s.acknowledge v
  | .register .ie => s.setIe v
  | _ => { s with bwerr := true }

/-- A host write at an aligned offset (R209, R211). -/
def State.writeWord (off : Nat) (v : Word) (s : State) : State :=
  match s.seq with
  | .idle => s.writeIdle (targetAt s.params off) v
  | .busy _ => s.writeBusy (targetAt s.params off) v

/-- The bus address of an access (R11). -/
def Access.addr : Access → Nat
  | .read addr _ => addr
  | .write addr _ _ => addr

/-- The width of an access in bytes (R11). -/
def Access.bytes : Access → Nat
  | .read _ bytes => bytes
  | .write _ bytes _ => bytes

/-- The access reaches AES-CORE: BASE ≤ A < BASE + 0x40000 (R201). -/
def Access.inAperture (p : Params) (a : Access) : Bool :=
  decide (p.base ≤ a.addr) && decide (a.addr < p.base + apertureBytes)

/-- The access is one AES-CORE performs: 32 bits at an offset that is a multiple of 4 (R202). -/
def Access.performed (p : Params) (a : Access) : Bool := a.bytes == 4 && (a.addr - p.base) % 4 == 0

/-- The ERROR response, with read data 0 (R203, R204). -/
def Access.errorReply : Access → Reply
  | .read _ _ => .read .error 0
  | .write _ _ _ => .write .error

/-- A performed access: a read returns its data and changes nothing else (R212), a write acts; both get
OKAY (R209 to R211). -/
def State.perform (a : Access) (s : State) : State :=
  match a with
  | .read addr _ => { s with reply := some (.read .okay (s.readWord (addr - s.params.base))) }
  | .write addr _ v => { s.writeWord (addr - s.params.base) v with reply := some (.write .okay) }

/-- One host access (R201 to R204, R209 to R211). An access outside the aperture never reaches AES-CORE
and is refused (R201, I9, log entry 9). -/
def hostAccess (a : Access) (s : State) : Host.Outcome State Fault Refusal :=
  if !a.inAperture s.params then .refused .outsideAperture
  else if !a.performed s.params then .next { s with reply := some a.errorReply }
  else .next (s.perform a)

end Sys2Proof.Machine
end

