-- ==== Sys2Proof/Machine/KeySchedule.lean ====
section
/-! DEFINITION. Key schedule expansion (41_key_schedule.md R420 to R424). -/

namespace Sys2Proof.Machine

/-- Nr for a key of Nk words: 10, 12 or 14 (R420). -/
def roundCount (nk : Nat) : Nat :=
  match nk with
  | 4 => 10
  | 6 => 12
  | 8 => 14
  | _ => 0

/-- RotWord (R421). -/
def rotWord (t : Word4) : Word4 := ⟨t.b1, t.b2, t.b3, t.b0⟩

/-- SubWord (R421). -/
def subWord (t : Word4) : Word4 := ⟨sbox t.b0, sbox t.b1, sbox t.b2, sbox t.b3⟩

/-- Word i of a key: its bytes 4i to 4i+3 (R420). -/
def keyWord (key : List Byte) (i : Nat) : Word4 :=
  ⟨key.getD (4 * i) 0, key.getD (4 * i + 1) 0, key.getD (4 * i + 2) 0, key.getD (4 * i + 3) 0⟩

/-- The word `t` of R422 at position i, from the previous word, with j the round-constant counter after
this position's increment. -/
def scheduleTemp (nk i j : Nat) (prev : Word4) : Word4 :=
  if i % nk = 0 then
    let t := subWord (rotWord prev)
    { t with b0 := t.b0 ^^^ rcon j }
  else if nk = 8 ∧ i % nk = 4 then subWord prev
  else prev

/-- The loop of R422 with n words to go, from position i with round-constant counter j. `acc` holds the
words so far, the newest first, so `w[i-1]` is its head and `w[i-Nk]` its element Nk-1. -/
def expandLoop (nk : Nat) : (n i j : Nat) → (acc : List Word4) → List Word4
  | 0, _, _, acc => acc
  | n + 1, i, j, acc =>
    let j' := if i % nk = 0 then j + 1 else j
    let t := scheduleTemp nk i j' (acc.getD 0 Word4.zero)
    expandLoop nk n (i + 1) j' (xorWord4 (acc.getD (nk - 1) Word4.zero) t :: acc)

/-- KeyExpansion of a key of 16, 24 or 32 bytes: the words w[0] to w[4·(Nr+1)-1] (R422). -/
def keyExpansion (key : List Byte) : List Word4 :=
  let nk := key.length / 4
  let first := (List.range nk).map (keyWord key)
  (expandLoop nk (4 * (roundCount nk + 1) - nk) nk 0 first.reverse).reverse

/-- The round-key store holding a schedule, words past its end 0 (R130, R425). -/
def loadSchedule (ws : List Word4) : RoundKeys := Vector.ofFn fun i => ws.getD i.val Word4.zero

/-- `RKM(i)`: the round-key matrix of words 4i to 4i+3, a word a column (R423, R424). -/
def roundKey (rk : RoundKeys) (i : Nat) : Matrix :=
  let word (k : Nat) : Word4 := (rk[k]?).getD Word4.zero
  ⟨word (4 * i), word (4 * i + 1), word (4 * i + 2), word (4 * i + 3)⟩

end Sys2Proof.Machine
end

