-- ==== Sys2Proof/Machine/BlockCipher.lean ====
section
/-! DEFINITION. The block cipher engine (42_block_cipher.md R440 to R450). -/

namespace Sys2Proof.Machine

/-- Bytes 4c to 4c+3 of a block: column c, top to bottom (R440). -/
def blockColumn (b : Block) (c : Nat) : Word4 :=
  ⟨(b[4 * c]?).getD 0, (b[4 * c + 1]?).getD 0, (b[4 * c + 2]?).getD 0, (b[4 * c + 3]?).getD 0⟩

/-- toState: `s[r][c] <- b[r + 4c]` (R440). -/
def toMatrix (b : Block) : Matrix := ⟨blockColumn b 0, blockColumn b 1, blockColumn b 2, blockColumn b 3⟩

/-- fromState: `b[r + 4c] <- s[r][c]` (R440). -/
def fromMatrix (s : Matrix) : Block :=
  #v[s.c0.b0, s.c0.b1, s.c0.b2, s.c0.b3, s.c1.b0, s.c1.b1, s.c1.b2, s.c1.b3,
     s.c2.b0, s.c2.b1, s.c2.b2, s.c2.b3, s.c3.b0, s.c3.b1, s.c3.b2, s.c3.b3]

/-- AddRoundKey with a round-key matrix (R441). -/
def addRoundKey (s k : Matrix) : Matrix :=
  ⟨xorWord4 s.c0 k.c0, xorWord4 s.c1 k.c1, xorWord4 s.c2 k.c2, xorWord4 s.c3 k.c3⟩

/-- SubBytes (R442). -/
def subBytes (s : Matrix) : Matrix := ⟨subWord s.c0, subWord s.c1, subWord s.c2, subWord s.c3⟩

/-- Four bytes through INV_SBOX (R443). -/
def invSubWord (t : Word4) : Word4 := ⟨invSbox t.b0, invSbox t.b1, invSbox t.b2, invSbox t.b3⟩

/-- InvSubBytes (R443). -/
def invSubBytes (s : Matrix) : Matrix := ⟨invSubWord s.c0, invSubWord s.c1, invSubWord s.c2, invSubWord s.c3⟩

/-- ShiftRows: `s'[r][c] = s[r][(c + r) mod 4]` (R444). -/
def shiftRows (s : Matrix) : Matrix where
  c0 := ⟨s.c0.b0, s.c1.b1, s.c2.b2, s.c3.b3⟩
  c1 := ⟨s.c1.b0, s.c2.b1, s.c3.b2, s.c0.b3⟩
  c2 := ⟨s.c2.b0, s.c3.b1, s.c0.b2, s.c1.b3⟩
  c3 := ⟨s.c3.b0, s.c0.b1, s.c1.b2, s.c2.b3⟩

/-- InvShiftRows: `s'[r][c] = s[r][(c - r) mod 4]` (R445). -/
def invShiftRows (s : Matrix) : Matrix where
  c0 := ⟨s.c0.b0, s.c3.b1, s.c2.b2, s.c1.b3⟩
  c1 := ⟨s.c1.b0, s.c0.b1, s.c3.b2, s.c2.b3⟩
  c2 := ⟨s.c2.b0, s.c1.b1, s.c0.b2, s.c3.b3⟩
  c3 := ⟨s.c3.b0, s.c2.b1, s.c1.b2, s.c0.b3⟩

/-- MixColumns (R446). -/
def mixColumns (s : Matrix) : Matrix := ⟨mixColumn s.c0, mixColumn s.c1, mixColumn s.c2, mixColumn s.c3⟩

/-- InvMixColumns (R447). -/
def invMixColumns (s : Matrix) : Matrix :=
  ⟨invMixColumn s.c0, invMixColumn s.c1, invMixColumn s.c2, invMixColumn s.c3⟩

/-- One full round of the cipher with a round-key matrix (R449). -/
def encRound (s k : Matrix) : Matrix := addRoundKey (mixColumns (shiftRows (subBytes s))) k

/-- The final round, without MixColumns (R449). -/
def encLastRound (s k : Matrix) : Matrix := addRoundKey (shiftRows (subBytes s)) k

/-- Rounds 1 to n of the cipher, in rising order (R449). -/
def encRounds (rk : RoundKeys) : (n : Nat) → Matrix → Matrix
  | 0, s => s
  | n + 1, s => encRound (encRounds rk n s) (roundKey rk (n + 1))

/-- Cipher(b, RK, Nr) (R449). -/
def cipher (rk : RoundKeys) (nr : Nat) (b : Block) : Block :=
  let s := addRoundKey (toMatrix b) (roundKey rk 0)
  fromMatrix (encLastRound (encRounds rk (nr - 1) s) (roundKey rk nr))

/-- One full round of the inverse cipher with a round-key matrix (R450). -/
def decRound (s k : Matrix) : Matrix := invSubBytes (invShiftRows (invMixColumns (addRoundKey s k)))

/-- Rounds n down to 1 of the inverse cipher (R450). -/
def decRounds (rk : RoundKeys) : (n : Nat) → Matrix → Matrix
  | 0, s => s
  | n + 1, s => decRounds rk n (decRound s (roundKey rk (n + 1)))

/-- InvCipher(b, RK, Nr) (R450). -/
def invCipher (rk : RoundKeys) (nr : Nat) (b : Block) : Block :=
  let s := addRoundKey (toMatrix b) (roundKey rk nr)
  let s := invSubBytes (invShiftRows s)
  fromMatrix (addRoundKey (decRounds rk (nr - 1) s) (roundKey rk 0))

end Sys2Proof.Machine
end

