-- ==== Sys2Proof/Machine/Chaining.lean ====
section
/-! DEFINITION. PKCS#7 padding and CBC chaining (43_chained_mode.md R470 to R475). -/

namespace Sys2Proof.Machine

/-- Pad (R470). -/
def pad (m : List Byte) : List Byte :=
  let p := 16 - m.length % 16
  m ++ List.replicate p (BitVec.ofNat 8 p)

/-- Unpad (R472); none is `fail PADDING`. Callers pass a positive multiple of 16 bytes; the empty string
fails (log entry 22). -/
def unpad (m : List Byte) : Option (List Byte) :=
  match m.getLast? with
  | none => none
  | some last =>
    let p := last.toNat
    if p < 1 ∨ 16 < p then none
    else if (m.drop (m.length - p)).all (· == last) then some (m.take (m.length - p))
    else none

/-- The ciphertext blocks of CbcEncrypt from a chaining variable (R474). -/
def cbcEncBlocks (enc : Block → Block) : (cv : Block) → List Block → List Block
  | _, [] => []
  | cv, p :: ps =>
    let c := enc (xorBytes p cv)
    c :: cbcEncBlocks enc c ps

/-- The plaintext blocks of CbcDecryptRaw from a chaining variable: block j is combined with ciphertext
block j-1, or the IV (R475, 90_conflicts.md C3). -/
def cbcDecBlocks (dec : Block → Block) : (cv : Block) → List Block → List Block
  | _, [] => []
  | cv, c :: cs => xorBytes (dec c) cv :: cbcDecBlocks dec c cs

/-- CbcEncrypt(m, iv, RK, Nr) (R474). -/
def cbcEncrypt (rk : RoundKeys) (nr : Nat) (iv : Block) (m : List Byte) : List Byte :=
  joinBlocks (cbcEncBlocks (cipher rk nr) iv (blocksOf (pad m)))

/-- CbcDecryptRaw(c, iv, RK, Nr) (R475). -/
def cbcDecryptRaw (rk : RoundKeys) (nr : Nat) (iv : Block) (c : List Byte) : List Byte :=
  joinBlocks (cbcDecBlocks (invCipher rk nr) iv (blocksOf c))

/-- CbcDecrypt(c, iv): Unpad of CbcDecryptRaw (R475). -/
def cbcDecrypt (rk : RoundKeys) (nr : Nat) (iv : Block) (c : List Byte) : Option (List Byte) :=
  unpad (cbcDecryptRaw rk nr iv c)

end Sys2Proof.Machine
end

