-- ==== Sys2Proof/Machine/Sha256.lean ====
section
/-! DEFINITION. SHA-256 (44_hash_kdf.md R500 to R504). -/

namespace Sys2Proof.Machine

/-- ROTR_n (R500). -/
def rotr (n : Nat) (x : Word) : Word := (x >>> n) ||| (x <<< (32 - n))

/-- Ch (R500). -/
def ch (x y z : Word) : Word := (x &&& y) ^^^ (~~~x &&& z)

/-- Maj (R500). -/
def maj (x y z : Word) : Word := (x &&& y) ^^^ (x &&& z) ^^^ (y &&& z)

/-- Σ0 (R500). -/
def bigSigma0 (x : Word) : Word := rotr 2 x ^^^ rotr 13 x ^^^ rotr 22 x

/-- Σ1 (R500). -/
def bigSigma1 (x : Word) : Word := rotr 6 x ^^^ rotr 11 x ^^^ rotr 25 x

/-- σ0 (R500). -/
def smallSigma0 (x : Word) : Word := rotr 7 x ^^^ rotr 18 x ^^^ (x >>> 3)

/-- σ1 (R500). -/
def smallSigma1 (x : Word) : Word := rotr 17 x ^^^ rotr 19 x ^^^ (x >>> 10)

/-- The padded message (R501): M, 0x80, the least number of zero bytes, BE64 of the bit length. -/
def shaPad (m : List Byte) : List Byte :=
  m ++ [0x80] ++ List.replicate ((64 - (m.length + 9) % 64) % 64) 0 ++ be64 (8 * m.length)

/-- Big-endian words of a string, four bytes each (R501). -/
def wordsBE : List Byte → List Word
  | b0 :: b1 :: b2 :: b3 :: rest => packBE b0 b1 b2 b3 :: wordsBE rest
  | _ => []

/-- The 64-byte block j of a padded message as sixteen words (R501). -/
def shaBlock (m : List Byte) (j : Nat) : List Word := wordsBE ((m.drop (64 * j)).take 64)

/-- The round constants K[0] to K[63] (R502). -/
def shaK : List Word :=
  [0x428a2f98, 0x71374491, 0xb5c0fbcf, 0xe9b5dba5, 0x3956c25b, 0x59f111f1, 0x923f82a4, 0xab1c5ed5] ++
  [0xd807aa98, 0x12835b01, 0x243185be, 0x550c7dc3, 0x72be5d74, 0x80deb1fe, 0x9bdc06a7, 0xc19bf174] ++
  [0xe49b69c1, 0xefbe4786, 0x0fc19dc6, 0x240ca1cc, 0x2de92c6f, 0x4a7484aa, 0x5cb0a9dc, 0x76f988da] ++
  [0x983e5152, 0xa831c66d, 0xb00327c8, 0xbf597fc7, 0xc6e00bf3, 0xd5a79147, 0x06ca6351, 0x14292967] ++
  [0x27b70a85, 0x2e1b2138, 0x4d2c6dfc, 0x53380d13, 0x650a7354, 0x766a0abb, 0x81c2c92e, 0x92722c85] ++
  [0xa2bfe8a1, 0xa81a664b, 0xc24b8b70, 0xc76c51a3, 0xd192e819, 0xd6990624, 0xf40e3585, 0x106aa070] ++
  [0x19a4c116, 0x1e376c08, 0x2748774c, 0x34b0bcb5, 0x391c0cb3, 0x4ed8aa4a, 0x5b9cca4f, 0x682e6ff3] ++
  [0x748f82ee, 0x78a5636f, 0x84c87814, 0x8cc70208, 0x90befffa, 0xa4506ceb, 0xbef9a3f7, 0xc67178f2]

/-- The eight working words a to h, or H[0] to H[7] (R504). -/
structure HashState where
  a : Word
  b : Word
  c : Word
  d : Word
  e : Word
  f : Word
  g : Word
  h : Word
deriving DecidableEq, Repr

/-- H0, the initial hash value (R503). -/
def shaInit : HashState where
  a := 0x6a09e667
  b := 0xbb67ae85
  c := 0x3c6ef372
  d := 0xa54ff53a
  e := 0x510e527f
  f := 0x9b05688c
  g := 0x1f83d9ab
  h := 0x5be0cd19

/-- The message schedule (R504): `acc` holds W[0] to W[t-1], the newest first, and n words are to come. -/
def shaSchedule : (n : Nat) → (acc : List Word) → List Word
  | 0, acc => acc
  | n + 1, acc =>
    shaSchedule n
      ((smallSigma1 (acc.getD 1 0) + acc.getD 6 0 + smallSigma0 (acc.getD 14 0) + acc.getD 15 0) :: acc)

/-- One of the 64 rounds, with its K[t] and W[t] (R504). -/
def shaRound (s : HashState) (kw : Word × Word) : HashState :=
  let t1 := s.h + bigSigma1 s.e + ch s.e s.f s.g + kw.1 + kw.2
  let t2 := bigSigma0 s.a + maj s.a s.b s.c
  { a := t1 + t2, b := s.a, c := s.b, d := s.c, e := s.d + t1, f := s.e, g := s.f, h := s.g }

/-- `H[0..7] + (a, ..., h)`, word by word (R504). -/
def shaAdd (x y : HashState) : HashState where
  a := x.a + y.a
  b := x.b + y.b
  c := x.c + y.c
  d := x.d + y.d
  e := x.e + y.e
  f := x.f + y.f
  g := x.g + y.g
  h := x.h + y.h

/-- One block into the hash value (R504). -/
def shaCompress (s : HashState) (block : List Word) : HashState :=
  let w := (shaSchedule 48 block.reverse).reverse
  shaAdd s ((shaK.zip w).foldl shaRound s)

/-- The eight words of a hash value, big-endian (R504). -/
def shaOutput (s : HashState) : Digest :=
  firstBytes 32 (be32 s.a ++ be32 s.b ++ be32 s.c ++ be32 s.d ++ be32 s.e ++ be32 s.f ++ be32 s.g ++ be32 s.h)

/-- SHA256(M) (R504). Irreducible, so that no proof evaluates it by accident: the kernel and `unfold` still can. -/
@[irreducible] def sha256 (m : List Byte) : Digest :=
  let p := shaPad m
  shaOutput (((List.range (p.length / 64)).map (shaBlock p)).foldl shaCompress shaInit)

end Sys2Proof.Machine
end

