-- ==== Sys2Proof/Machine/KeyDerivation.lean ====
section
/-! DEFINITION. HMAC-SHA-256, PBKDF2 and the split of the derived key material (44_hash_kdf.md R510 to
R513), and the constant-time comparison (45_mac.md R542). -/

namespace Sys2Proof.Machine

/-- `K0`: the key, hashed first when it is longer than 64 bytes, filled with zero bytes to 64 (R510). -/
def hmacKey (k : List Byte) : List Byte :=
  let k := if 64 < k.length then (sha256 k).toList else k
  k ++ List.replicate (64 - k.length) 0

/-- HMAC(K, M) (R510). -/
def hmac (k m : List Byte) : Digest :=
  let k0 := hmacKey k
  sha256 (k0.map (· ^^^ 0x5c) ++ (sha256 (k0.map (· ^^^ 0x36) ++ m)).toList)

/-- The repetition of R512: n more rounds of `U <- HMAC(P, U); T <- T ^ U`; the result is T. -/
def pbkdf2Loop (p : List Byte) : (n : Nat) → (u t : Digest) → Digest
  | 0, _, t => t
  | n + 1, u, t =>
    let u' := hmac p u.toList
    pbkdf2Loop p n u' (xorBytes t u')

/-- `T_i` of R512 for an iteration count c of at least 1. -/
def pbkdf2Block (p s : List Byte) (c i : Nat) : Digest :=
  let u := hmac p (s ++ be32 (BitVec.ofNat 32 i))
  pbkdf2Loop p (c - 1) u u

/-- PBKDF2(P, S, c, dkLen) (R512). -/
def pbkdf2 (p s : List Byte) (c dkLen : Nat) : List Byte :=
  let l := (dkLen + 31) / 32
  (((List.range l).map fun i => (pbkdf2Block p s c (i + 1)).toList).flatten).take dkLen

/-- The three 16-byte parts of the derived key material (R513). -/
structure DerivedKeys where
  ck : Block
  ak : Block
  iv : Block
deriving DecidableEq, Repr

/-- DeriveKeys(P, S, c): CK first, then AK, then IV (R513, 90_conflicts.md C7). -/
def deriveKeys (p s : List Byte) (c : Nat) : DerivedKeys :=
  let dk := pbkdf2 p s c 48
  { ck := firstBytes 16 dk, ak := firstBytes 16 (dk.drop 16), iv := firstBytes 16 (dk.drop 32) }

/-- CtEqual(a, b): all 32 bytes are always combined (R542). -/
def ctEqual (a b : Digest) : Bool :=
  (List.zipWith (· ^^^ ·) a.toList b.toList).foldl (· ||| ·) 0 == 0

end Sys2Proof.Machine
end

