-- ==== Sys2Proof/Machine/Operands.lean ====
section
/-! DEFINITION. The operands of the commands (30_encoding.md R303, R304): byte strings of the form
W(NAME)[0:n) with n a length register's full unsigned value, and the fields of a wire blob
(46_ae_api.md R560). -/

namespace Sys2Proof.Machine

/-- `W(KEY)[0:KEY_LEN)`: the key, or the password; callers check KEY_LEN ≤ 32 (R117). -/
def State.keyBytes (s : State) : List Byte := s.key.toList.take s.keyLen.toNat

/-- `W(DIN)[0:MSG_LEN)`; callers check MSG_LEN ≤ DIN_BYTES (R124). -/
def State.message (s : State) : List Byte := (List.range s.msgLen.toNat).map s.dinByte

/-- KEY_LEN ∈ {16, 24, 32} (R6, R425). -/
def State.keyLenValid (s : State) : Bool := s.keyLen == 16 || s.keyLen == 24 || s.keyLen == 32

/-- MSG_LEN > DIN_BYTES (R113). -/
def State.messageTooLong (s : State) : Bool := decide (s.params.dinBytes < s.msgLen.toNat)

/-- Some byte of the message is above 0x7F (R561 step 5). -/
def State.messageNotAscii (s : State) : Bool := s.message.any fun b => decide (0x7F < b.toNat)

/-- The salt of AE_ENCRYPT: SALT when HS = 1, the next entropy draw when HS = 0 (R562). -/
def State.encryptSalt (s : State) (hs : Bool) : Block :=
  if hs then s.salt else Config.entropyDraw s.draws

/-- The draws taken after an AE_ENCRYPT that passed its checks: one when HS = 0 (R561, R562). -/
def State.drawsAfter (s : State) (hs : Bool) : Nat := if hs then s.draws else s.draws + 1

/-- The tag field of a blob, bytes [0, 32) (R560). -/
def blobTag (blob : List Byte) : Digest := firstBytes 32 blob

/-- The salt field of a blob, bytes [32, 48) (R560). -/
def blobSalt (blob : List Byte) : Block := firstBytes 16 (blob.drop 32)

/-- The ciphertext field of a blob, bytes 48 on (R560). -/
def blobCiphertext (blob : List Byte) : List Byte := blob.drop 48

end Sys2Proof.Machine
end

