-- ==== Sys2Proof/Machine/AeCommands.lean ====
section
/-! DEFINITION. The meanings of AE_ENCRYPT and AE_DECRYPT (46_ae_api.md R560 to R568). Derived keys and
schedule are local to one command (R133, R568); the cipher is AES-128 in every case (R567). -/

namespace Sys2Proof.Machine

/-- The wire blob of a plaintext: tag, then salt, then ciphertext (R560, R562 steps 3 to 6). -/
def aeBlob (password : List Byte) (salt : Block) (iter : Nat) (plaintext : List Byte) : List Byte :=
  let d := deriveKeys password salt.toList iter
  let ct := cbcEncrypt (loadSchedule (keyExpansion d.ck.toList)) 10 d.iv plaintext
  (hmac d.ak.toList (salt.toList ++ ct)).toList ++ salt.toList ++ ct

/-- The plaintext of a wire blob, the tag checked before any decryption (R565 steps 2 to 6). -/
def aeOpen (password : List Byte) (iter : Nat) (blob : List Byte) : Except CmdError (List Byte) :=
  let salt := blobSalt blob
  let ct := blobCiphertext blob
  let d := deriveKeys password salt.toList iter
  if !ctEqual (hmac d.ak.toList (salt.toList ++ ct)) (blobTag blob) then .error .integrityFailure
  else
    match cbcDecrypt (loadSchedule (keyExpansion d.ck.toList)) 10 d.iv ct with
    | none => .error .paddingError
    | some m => .ok m

/-- The first failing check of AE_ENCRYPT, steps 1 to 6 in order (R561). -/
def aeEncryptCheck (s : State) : Option CmdError :=
  if s.keyLen = 0 then some .emptyKey
  else if !s.keyLenValid then some .invalidKeyLength
  else if s.msgLen = 0 then some .emptyMessage
  else if s.messageTooLong then some (.contractViolation .messageTooLong)
  else if s.messageNotAscii then some .unsupportedMessageType
  else if s.iter = 0 then some (.contractViolation .zeroIterations)
  else none

/-- The first failing check of AE_DECRYPT, steps 1 to 6 in order (R564). -/
def aeDecryptCheck (s : State) : Option CmdError :=
  if s.keyLen = 0 then some .emptyKey
  else if !s.keyLenValid then some .invalidKeyLength
  else if s.msgLen = 0 then some .emptyMessage
  else if s.messageTooLong then some (.contractViolation .messageTooLong)
  else if s.msgLen.toNat % 16 ≠ 0 ∨ s.msgLen.toNat < 64 then some (.contractViolation .malformedBlob)
  else if s.iter = 0 then some (.contractViolation .zeroIterations)
  else none

/-- The blob AE_ENCRYPT builds from its operands (R562). -/
def State.blob (s : State) (hs : Bool) : List Byte :=
  aeBlob s.keyBytes (s.encryptSalt hs) s.iter.toNat s.message

/-- The commit of AE_ENCRYPT: the blob into DOUT, its length into OUT_LEN, and the draws taken (R562). -/
def State.writeBlob (bs : List Byte) (draws : Nat) (s : State) : State :=
  { s with dout := s.dout.storeFrom 0 bs, outLen := BitVec.ofNat 32 bs.length, draws := draws }

/-- The result of AE_ENCRYPT (R562); no entropy is drawn before every check passed (R561). -/
def aeEncryptResult (hs : Bool) (s : State) : Except CmdError State :=
  match aeEncryptCheck s with
  | some e => .error e
  | none => .ok (s.writeBlob (s.blob hs) (s.drawsAfter hs))

/-- The result of AE_DECRYPT (R565). -/
def aeDecryptResult (s : State) : Except CmdError State :=
  match aeDecryptCheck s with
  | some e => .error e
  | none => (aeOpen s.keyBytes s.iter.toNat s.message).map fun m => s.writeOutput m

/-- AE_ENCRYPT with its HS bit (R562, R566). -/
def execAeEncrypt (hs : Bool) (s : State) : Host.Outcome State Fault Refusal :=
  .next (s.completeAe (aeEncryptResult hs s))

/-- AE_DECRYPT (R565, R566). -/
def execAeDecrypt (s : State) : Host.Outcome State Fault Refusal := .next (s.completeAe (aeDecryptResult s))

end Sys2Proof.Machine
end

