-- ==== Sys2Proof/Machine/BlockCommands.lean ====
section
/-! DEFINITION. The meanings of ENC_BLOCK and DEC_BLOCK (42_block_cipher.md R455, R456). -/

namespace Sys2Proof.Machine

/-- The commit of a block command: BLOCK_OUT written (R122, R455, R456). -/
def State.writeBlockOut (b : Block) (s : State) : State := { s with blockOut := b }

/-- The result of a block command whose engine is `f`: `W(BLOCK_OUT) <- f(W(BLOCK_IN), RK, NR)`, when a
schedule is loaded (R455, R456). -/
def blockResult (f : RoundKeys → Nat → Block → Block) (s : State) : Except CmdError State :=
  if s.ksValid = false then .error (.contractViolation .noKeySchedule)
  else .ok (s.writeBlockOut (f s.rk s.nr.toNat s.blockIn))

/-- ENC_BLOCK (R455). -/
def execEncBlock (s : State) : Host.Outcome State Fault Refusal := .next (s.complete (blockResult cipher s))

/-- DEC_BLOCK (R456). -/
def execDecBlock (s : State) : Host.Outcome State Fault Refusal := .next (s.complete (blockResult invCipher s))

end Sys2Proof.Machine
end

