-- ==== Sys2Proof/Machine/ChainedCommands.lean ====
section
/-! DEFINITION. The meanings of CBC_ENC and CBC_DEC (43_chained_mode.md R480, R481). -/

namespace Sys2Proof.Machine

/-- The result of CBC_ENC, its checks in order (R480). -/
def cbcEncResult (s : State) : Except CmdError State :=
  if s.ksValid = false then .error (.contractViolation .noKeySchedule)
  else if s.messageTooLong then .error (.contractViolation .messageTooLong)
  else .ok (s.writeOutput (cbcEncrypt s.rk s.nr.toNat s.iv s.message))

/-- The result of CBC_DEC, its checks in order (R481). -/
def cbcDecResult (s : State) : Except CmdError State :=
  if s.ksValid = false then .error (.contractViolation .noKeySchedule)
  else if s.messageTooLong then .error (.contractViolation .messageTooLong)
  else if s.msgLen.toNat = 0 ∨ s.msgLen.toNat % 16 ≠ 0 then .error (.contractViolation .badCiphertextLength)
  else
    match cbcDecrypt s.rk s.nr.toNat s.iv s.message with
    | none => .error .paddingError
    | some m => .ok (s.writeOutput m)

/-- CBC_ENC (R480). -/
def execCbcEnc (s : State) : Host.Outcome State Fault Refusal := .next (s.completeCbc (cbcEncResult s))

/-- CBC_DEC (R481). -/
def execCbcDec (s : State) : Host.Outcome State Fault Refusal := .next (s.completeCbc (cbcDecResult s))

end Sys2Proof.Machine
end

