-- ==== Sys2Proof/Machine/KdfCommands.lean ====
section
/-! DEFINITION. The meaning of KDF (44_hash_kdf.md R520). -/

namespace Sys2Proof.Machine

/-- The commit of KDF: the three parts into DK_CK, DK_AK and DK_IV (R123, R520). -/
def State.withDerivedKeys (d : DerivedKeys) (s : State) : State :=
  { s with dkCk := d.ck, dkAk := d.ak, dkIv := d.iv }

/-- The result of KDF, its checks in order (R520). -/
def kdfResult (s : State) : Except CmdError State :=
  if 32 < s.keyLen.toNat then .error .invalidKeyLength
  else if s.iter = 0 then .error (.contractViolation .zeroIterations)
  else .ok (s.withDerivedKeys (deriveKeys s.keyBytes s.salt.toList s.iter.toNat))

/-- KDF (R520). -/
def execKdf (s : State) : Host.Outcome State Fault Refusal := .next (s.complete (kdfResult s))

end Sys2Proof.Machine
end

