-- ==== Sys2Proof/Machine/KeyCommands.lean ====
section
/-! DEFINITION. The meaning of KEY_EXPAND (41_key_schedule.md R425). -/

namespace Sys2Proof.Machine

/-- The commit of KEY_EXPAND: the schedule of the key in KEY loaded, words past its end 0 (R425). -/
def State.withSchedule (s : State) : State :=
  { s with
    rk := loadSchedule (keyExpansion s.keyBytes)
    nr := BitVec.ofNat 8 (roundCount (s.keyLen.toNat / 4))
    ksValid := true }

/-- The result of KEY_EXPAND, its checks in order (R425). -/
def keyExpandResult (s : State) : Except CmdError State :=
  if s.keyLen = 0 then .error .emptyKey
  else if !s.keyLenValid then .error .invalidKeyLength
  else .ok s.withSchedule

/-- KEY_EXPAND (R425). -/
def execKeyExpand (s : State) : Host.Outcome State Fault Refusal := .next (s.complete (keyExpandResult s))

end Sys2Proof.Machine
end

