-- ==== Sys2Proof/Machine/MacCommands.lean ====
section
/-! DEFINITION. The meanings of TAG_COMPUTE and TAG_VERIFY (45_mac.md R540, R541). -/

namespace Sys2Proof.Machine

/-- `HMAC(W(DK_AK), W(SALT) || W(DIN)[0:MSG_LEN))` (R540, R541). -/
def State.messageTag (s : State) : Digest := hmac s.dkAk.toList (s.salt.toList ++ s.message)

/-- The commit of TAG_COMPUTE: TAG written (R120, R540). -/
def State.writeTag (d : Digest) (s : State) : State := { s with tag := d }

/-- The result of TAG_COMPUTE (R540). -/
def tagComputeResult (s : State) : Except CmdError State :=
  if s.messageTooLong then .error (.contractViolation .messageTooLong)
  else .ok (s.writeTag s.messageTag)

/-- The result of TAG_VERIFY, which commits nothing (R541). -/
def tagVerifyResult (s : State) : Except CmdError State :=
  if s.messageTooLong then .error (.contractViolation .messageTooLong)
  else if !ctEqual s.messageTag s.tag then .error .integrityFailure
  else .ok s

/-- TAG_COMPUTE (R540). -/
def execTagCompute (s : State) : Host.Outcome State Fault Refusal := .next (s.complete (tagComputeResult s))

/-- TAG_VERIFY (R541). -/
def execTagVerify (s : State) : Host.Outcome State Fault Refusal := .next (s.complete (tagVerifyResult s))

end Sys2Proof.Machine
end

