-- ==== Sys2Proof/Machine/Dispatch.lean ====
section
/-! DEFINITION. One arm per command: the completion step of that command (60_exceptions.md R611). -/

namespace Sys2Proof.Machine

def exec (i : Instr) (s : State) : Host.Outcome State Fault Refusal :=
  match i with
  | .keyExpand => Sys2Proof.Machine.execKeyExpand s
  | .encBlock => Sys2Proof.Machine.execEncBlock s
  | .decBlock => Sys2Proof.Machine.execDecBlock s
  | .cbcEnc => Sys2Proof.Machine.execCbcEnc s
  | .cbcDec => Sys2Proof.Machine.execCbcDec s
  | .kdf => Sys2Proof.Machine.execKdf s
  | .tagCompute => Sys2Proof.Machine.execTagCompute s
  | .tagVerify => Sys2Proof.Machine.execTagVerify s
  | .aeEncrypt hs => Sys2Proof.Machine.execAeEncrypt hs s
  | .aeDecrypt => Sys2Proof.Machine.execAeDecrypt s

end Sys2Proof.Machine
end

