-- ==== Sys2Proof/Machine/Sequencer.lean ====
section
/-! DEFINITION. The sequencer's step (60_exceptions.md R611) and one turn of an agent (00_scope.md R15). -/

namespace Sys2Proof.Machine

/-- The sequencer's turn: while BUSY it takes the completion step of the latched command, while IDLE it
does nothing (R611, R635). A latched word is legal (R302, R610; log entry 10). -/
def sequencerStep (s : State) : Host.Outcome State Fault Refusal :=
  match s.seq with
  | .idle => .next s
  | .busy w =>
    match decodeWord w with
    | .ok i => exec i s
    | .error _ => .fault .latchedWordIllegal

/-- One step of the machine (R15, R214, R218, R621): the agent of the oldest pending turn acts. With no
turn pending the sequencer acts, so a command completes after a finite delay (R720; log entry 1). -/
def turnStep (s : State) : Host.Outcome State Fault Refusal :=
  match s.turns with
  | [] => sequencerStep { s with reply := none }
  | .host a :: rest => hostAccess a { s with turns := rest, reply := none }
  | .sequencer :: rest => sequencerStep { s with turns := rest, reply := none }
  | .reset :: rest => .next { s with turns := rest }.applyReset

/-- The state in which the sequencer has latched a word and it is its turn (log entry 2). -/
def State.latch (w : Word) (s : State) : State := { s with seq := .busy w, turns := .sequencer :: s.turns }

end Sys2Proof.Machine
end

