-- ==== Sys2Proof/Machine/Step.lean ====
section
/-! DEFINITION. One step of AES-CORE, and the placing of a command word as the next one to run. -/

namespace Sys2Proof.Machine

/-- One step (00_scope.md R15): one agent's turn. -/
def step (s : State) : Host.Outcome State Fault Refusal := turnStep s

/-- `s` with a command word latched and the sequencer's turn next, so that the very next step runs it
(R132, R611; log entry 2). Bit i of `w` is bit i of the CMD word; bits from `nbits` on are 0. -/
def State.withFetchWord (s : State) (nbits w : Nat) : State := s.latch (BitVec.ofNat 32 (w % 2 ^ min nbits 32))

end Sys2Proof.Machine
end

