-- ==== Sys2Proof/Safety.lean ====
section
/-! DEFINITION. The invariant that rules out states no run reaches, and what a safe state is: claims are stated
in these terms. -/

namespace Sys2Proof.Machine

/-- What holds in every state a run can reach from `State.reset` with well-formed parameters. -/
structure State.Inv (s : State) : Prop where
  /-- The parameters keep the constraints of R7. -/
  params : s.params.wf = true
  /-- Only a legal word is ever latched (R302, R610). -/
  latched : ∀ w, s.seq = .busy w → CommandWord.legal w = true
  /-- From accept to completion DONE, ERR_CODE and ERR_DETAIL are 0 (R106, R109, R610). -/
  inProgress : s.busy = true → s.done = false ∧ s.errCode = 0 ∧ s.errDetail = 0
  /-- ERR_CODE is one of 0 to 8 (R109, R601). -/
  code : s.errCode.toNat ≤ 8
  /-- ERR_DETAIL is 1 to 5 with ERR_CODE 7 and 0 with every other (R110, R602). -/
  detail : (s.errCode = 7 → 1 ≤ s.errDetail.toNat ∧ s.errDetail.toNat ≤ 5) ∧ (s.errCode ≠ 7 → s.errDetail = 0)
  /-- NR is 10, 12 or 14 when KS_VALID = 1 and 0 when KS_VALID = 0 (R116). -/
  rounds : (s.ksValid = true → s.nr = 10 ∨ s.nr = 12 ∨ s.nr = 14) ∧ (s.ksValid = false → s.nr = 0)
  /-- RK is 0 without a schedule, and past the schedule's end with one (R130, R566). -/
  unusedKeys : ∀ i : Fin 60, (s.ksValid = false ∨ 4 * (s.nr.toNat + 1) ≤ i.val) → s.rk[i] = Word4.zero
  /-- OUT_LEN never exceeds DOUT's size (R115, R125). -/
  outLen : s.outLen.toNat ≤ s.params.doutBytes
  /-- DIN's written bytes are in canonical form. -/
  dinForm : Memory.wf s.din = true
  /-- DOUT's written bytes are in canonical form. -/
  doutForm : Memory.wf s.dout = true
  /-- DIN's written bytes lie inside the window (R124, R215). -/
  dinRange : ∀ c ∈ s.din, c.1 < s.params.dinBytes
  /-- DOUT's written bytes lie inside the window (R125, R215). -/
  doutRange : ∀ c ∈ s.dout, c.1 < s.params.doutBytes

/-- The machine does not stop with a fault at its next step: AES-CORE never locks up (R600, R605). -/
def State.NoFault (s : State) : Prop := ∀ f, step s ≠ .fault f

end Sys2Proof.Machine
end

