-- ==== Sys2Proof/Certificates/Slice0/Obligations.lean ====
section
/-! DEFINITION. The statements for the provers. `Sys2Proof.Spec` holds the few words they share, written from
the spec and not from the meanings; a word of the model is used only where the statement is about it. -/

namespace Sys2Proof.Spec

open Sys2Proof.Machine

/-- The state after a completion that changes nothing but STATUS and SEQ (R611). -/
def completed (s : State) (code detail : BitVec 4) : State :=
  { s with seq := .idle, done := true, errCode := code, errDetail := detail }

/-- The state after a failed CBC command: OUT_LEN <- 0 as well (R604). -/
def cbcFailed (s : State) (code detail : BitVec 4) : State :=
  { s with seq := .idle, done := true, errCode := code, errDetail := detail, outLen := 0 }

/-- RK, NR and KS_VALID at 0 (R566). -/
def scheduleCleared (s : State) : State :=
  { s with rk := Vector.replicate 60 ⟨0, 0, 0, 0⟩, nr := 0, ksValid := false }

/-- The state after a failed AE command (R604, R566). -/
def aeFailed (s : State) (code detail : BitVec 4) : State := scheduleCleared (cbcFailed s code detail)

/-- `W(NAME)[a:a+n)` as a byte string (R9, R10). -/
def windowBytes (s : State) (w : Window) (a n : Nat) : List Byte :=
  (List.range n).map fun k => s.windowByte w (a + k)

/-- `W(NAME)[a:a+16)` as a block. -/
def windowBlock (s : State) (w : Window) (a : Nat) : Block := Vector.ofFn fun k => s.windowByte w (a + k.val)

/-- Byte k of Pad(W(DIN)[0:MSG_LEN)) (R470). -/
def paddedByte (s : State) (k : Nat) : Byte :=
  if k < s.msgLen.toNat then s.windowByte .din k else BitVec.ofNat 8 (16 - s.msgLen.toNat % 16)

/-- Block j of Pad(W(DIN)[0:MSG_LEN)). -/
def paddedBlock (s : State) (j : Nat) : Block := Vector.ofFn fun k => paddedByte s (16 * j + k.val)

/-- The number of blocks of Pad(m) for a message of L bytes (R471). -/
def paddedBlocks (len : Nat) : Nat := len / 16 + 1

/-- `c j` for j < n are the CBC ciphertext blocks of the plaintext blocks `p j` (R474). -/
def CbcChain (enc : Block → Block) (iv : Block) (p c : Nat → Block) (n : Nat) : Prop :=
  ∀ j < n, c j = enc (xorBytes (p j) (if j = 0 then iv else c (j - 1)))

/-- Byte k of CbcDecryptRaw of W(DIN)[a:...): its block through `dec`, combined with the ciphertext block
before it, or with the IV (R475). -/
def rawPlainByte (s : State) (dec : Block → Block) (iv : Block) (a k : Nat) : Byte :=
  let j := k / 16
  ((dec (windowBlock s .din (a + 16 * j)))[k % 16]?).getD 0 ^^^
    ((if j = 0 then iv else windowBlock s .din (a + 16 * (j - 1)))[k % 16]?).getD 0

/-- The last of n bytes declares a pad length p from 1 to 16 and the last p bytes all equal p (R472). -/
def PaddingValid (q : Nat → Byte) (n : Nat) : Prop :=
  1 ≤ (q (n - 1)).toNat ∧ (q (n - 1)).toNat ≤ 16 ∧ ∀ k, n - (q (n - 1)).toNat ≤ k → k < n → q k = q (n - 1)

/-- `U` of R512 after n repetitions, for output block i. -/
def prfChain (p s : List Byte) (i : Nat) : Nat → Digest
  | 0 => hmac p (s ++ [0, 0, 0, BitVec.ofNat 8 i])
  | n + 1 => hmac p (prfChain p s i n).toList

/-- Byte k of `T_i` of R512 after c iterations: the exclusive-or of byte k of every U. -/
def prfXor (p s : List Byte) (i c k : Nat) : Byte :=
  ((List.range c).map fun n => ((prfChain p s i n)[k]?).getD 0).foldl (· ^^^ ·) 0

/-- The derived keys of a password, a salt and an iteration count: CK and AK are T_1, IV is the first half
of T_2 (R513). -/
def derivedKeys (p s : List Byte) (c : Nat) : DerivedKeys where
  ck := Vector.ofFn fun k => prfXor p s 1 c k.val
  ak := Vector.ofFn fun k => prfXor p s 1 c (16 + k.val)
  iv := Vector.ofFn fun k => prfXor p s 2 c k.val

/-- The password: W(KEY)[0:KEY_LEN). -/
def password (s : State) : List Byte := windowBytes s .key 0 s.keyLen.toNat

/-- The message: W(DIN)[0:MSG_LEN). -/
def message (s : State) : List Byte := windowBytes s .din 0 s.msgLen.toNat

/-- KEY_LEN ∈ {16, 24, 32}. -/
def KeyLenValid (s : State) : Prop := s.keyLen = 16 ∨ s.keyLen = 24 ∨ s.keyLen = 32

/-- MSG_LEN ≤ DIN_BYTES. -/
def MessageFits (s : State) : Prop := s.msgLen.toNat ≤ s.params.dinBytes

/-- The checks of AE_ENCRYPT all pass (R561). -/
def EncryptPasses (s : State) : Prop :=
  KeyLenValid s ∧ s.msgLen ≠ 0 ∧ MessageFits s ∧ (∀ k < s.msgLen.toNat, (s.windowByte .din k).toNat ≤ 0x7F) ∧
    s.iter ≠ 0

/-- The checks of AE_DECRYPT all pass (R564). -/
def DecryptPasses (s : State) : Prop :=
  KeyLenValid s ∧ MessageFits s ∧ s.msgLen.toNat % 16 = 0 ∧ 64 ≤ s.msgLen.toNat ∧ s.iter ≠ 0

/-- The key schedule of a 16-byte cipher key, as the AE commands use it. -/
def schedule (ck : Block) : RoundKeys := loadSchedule (keyExpansion ck.toList)

/-- `s[r][c]` of a matrix (R440). -/
def entry (s : Matrix) (r c : Nat) : Byte :=
  let col := [s.c0, s.c1, s.c2, s.c3].getD c Word4.zero
  [col.b0, col.b1, col.b2, col.b3].getD r 0

/-- The turn in which the host reads 32 bits at an aperture offset. -/
def readTurn (s : State) (off : Nat) : Turn := .host (.read (s.params.base + off) 4)

/-- The turn in which the host writes 32 bits at an aperture offset. -/
def writeTurn (s : State) (off : Nat) (v : Word) : Turn := .host (.write (s.params.base + off) 4 v)

/-- The state once the oldest turn is taken, with a reply. -/
def replied (s : State) (rest : List Turn) (r : Reply) : State := { s with turns := rest, reply := some r }

end Sys2Proof.Spec

open Sys2Proof Sys2Proof.Machine Sys2Proof.Spec

/-! ## Encoding (30_encoding.md) -/

/-- R301: the eleven command words decode to their commands, and every other OP value is reserved. -/
def Obligations.CommandWordsDecodeToTheirCommands : Prop :=
  decodeWord 0x00000001 = .ok .keyExpand ∧ decodeWord 0x00000002 = .ok .encBlock ∧
  decodeWord 0x00000003 = .ok .decBlock ∧ decodeWord 0x00000004 = .ok .cbcEnc ∧
  decodeWord 0x00000005 = .ok .cbcDec ∧ decodeWord 0x00000006 = .ok .kdf ∧
  decodeWord 0x00000007 = .ok .tagCompute ∧ decodeWord 0x00000008 = .ok .tagVerify ∧
  decodeWord 0x00000009 = .ok (.aeEncrypt false) ∧ decodeWord 0x00000109 = .ok (.aeEncrypt true) ∧
  decodeWord 0x0000000A = .ok .aeDecrypt ∧
  ∀ v : Word, (v.extractLsb' 0 8 = 0 ∨ 0x0B ≤ (v.extractLsb' 0 8).toNat) →
    decodeWord v = .error .reservedOp

/-- Decode and encode agree on all 2^32 words: a word decodes to i exactly when it is i's word, so no
word has two meanings, no bit is dropped and no command is without a word. -/
def Obligations.DecodeIsTheInverseOfEncode : Prop :=
  ∀ (v : Word) (i : Instr), decodeWord v = .ok i ↔ v = encode i

/-- The words the decoder accepts are exactly those that meet the three conditions of `legal(v)` (R302). -/
def Obligations.LegalWordsAndOnlyThoseDecode : Prop :=
  ∀ v : Word, (∃ i, decodeWord v = .ok i) ↔
    (1 ≤ (v.extractLsb' 0 8).toNat ∧ (v.extractLsb' 0 8).toNat ≤ 0x0A) ∧ v.extractLsb' 9 23 = 0 ∧
      (v.getLsbD 8 = false ∨ v.extractLsb' 0 8 = 0x09)

/-! ## Steps, accept, completion (60_exceptions.md) -/

/-- When the sequencer acts (its turn is the oldest, or no turn is pending): if the latched word decodes to i,
the step is `exec i` of the state with that turn taken and no reply; while IDLE nothing else changes. -/
def Obligations.StepRunsTheLatchedCommand : Prop :=
  ∀ s : State,
    (∀ (w : Word) (i : Instr), s.seq = .busy w → decodeWord w = .ok i →
      (s.turns = [] → step s = exec i { s with reply := none }) ∧
      (∀ rest, s.turns = .sequencer :: rest → step s = exec i { s with turns := rest, reply := none })) ∧
    (s.seq = .idle →
      (s.turns = [] → step s = .next { s with reply := none }) ∧
      (∀ rest, s.turns = .sequencer :: rest → step s = .next { s with turns := rest, reply := none }))

/-- R610 and R612: a legal word written to CMD while IDLE is accepted in one step, with no other state changed;
an illegal word completes at once with DONE <- 1, ERR_CODE <- 8, ERR_DETAIL <- 0, SEQ stays IDLE, and no
other state changes. -/
def Obligations.CommandWriteIsAcceptedOrRejected : Prop :=
  ∀ (s : State) (rest : List Turn) (v : Word), s.seq = .idle → s.params.wf = true →
    s.turns = writeTurn s 0x004 v :: rest →
    (∀ i, decodeWord v = .ok i →
      step s = .next (replied { s with seq := .busy v, done := false, errCode := 0, errDetail := 0 } rest
        (.write .okay))) ∧
    ((∀ i, decodeWord v ≠ .ok i) →
      step s = .next (replied { s with done := true, errCode := 8, errDetail := 0 } rest (.write .okay)))

/-- Every command ends in exactly one completion: `exec` always answers a next state, IDLE with DONE set,
whatever the outcome (R600, R611), and ERR_DETAIL is 0 unless ERR_CODE is 7 (R602). -/
def Obligations.EveryCommandCompletes : Prop :=
  ∀ (i : Instr) (s : State), ∃ t, exec i s = .next t ∧ t.seq = .idle ∧ t.busy = false ∧ t.done = true ∧
    (t.errCode ≠ 7 → t.errDetail = 0)

/-- The outcomes of R606: which command can end with which ERR_CODE and ERR_DETAIL; no other occurs. -/
def Obligations.OutcomesOfEachCommand : Prop :=
  ∀ (i : Instr) (s t : State), exec i s = .next t →
    (t.errCode.toNat, t.errDetail.toNat) ∈
      (match i with
        | .keyExpand => [(0, 0), (1, 0), (3, 0)]
        | .encBlock => [(0, 0), (7, 1)]
        | .decBlock => [(0, 0), (7, 1)]
        | .cbcEnc => [(0, 0), (7, 1), (7, 2)]
        | .cbcDec => [(0, 0), (6, 0), (7, 1), (7, 2), (7, 3)]
        | .kdf => [(0, 0), (3, 0), (7, 5)]
        | .tagCompute => [(0, 0), (7, 2)]
        | .tagVerify => [(0, 0), (5, 0), (7, 2)]
        | .aeEncrypt _ => [(0, 0), (1, 0), (2, 0), (3, 0), (4, 0), (7, 2), (7, 5)]
        | .aeDecrypt => [(0, 0), (1, 0), (2, 0), (3, 0), (5, 0), (6, 0), (7, 2), (7, 4), (7, 5)] : List (Nat × Nat))

/-- R603 and R604: a command that fails leaves every window, and for KEY_EXPAND the schedule, as it was;
the CBC and AE commands set OUT_LEN <- 0, and the AE commands clear RK, NR and KS_VALID. Nothing else but
STATUS and SEQ changes. -/
def Obligations.FailedCommandWritesNoOutput : Prop :=
  ∀ (i : Instr) (s t : State), exec i s = .next t → t.errCode ≠ 0 →
    t =
      (match i with
        | .cbcEnc => cbcFailed s t.errCode t.errDetail
        | .cbcDec => cbcFailed s t.errCode t.errDetail
        | .aeEncrypt _ => aeFailed s t.errCode t.errDetail
        | .aeDecrypt => aeFailed s t.errCode t.errDetail
        | .keyExpand => completed s t.errCode t.errDetail
        | .encBlock => completed s t.errCode t.errDetail
        | .decBlock => completed s t.errCode t.errDetail
        | .kdf => completed s t.errCode t.errDetail
        | .tagCompute => completed s t.errCode t.errDetail
        | .tagVerify => completed s t.errCode t.errDetail)

/-- The frame of every command: what the host wrote stays (R112 to R124, R715), and an output changes only
under the command that R303 lists as its writer. -/
def Obligations.CommandsChangeOnlyTheirOutputs : Prop :=
  ∀ (i : Instr) (s t : State), exec i s = .next t →
    (t.params = s.params ∧ t.bwerr = s.bwerr ∧ t.doneIe = s.doneIe ∧ t.bwerrIe = s.bwerrIe ∧
      t.keyLen = s.keyLen ∧ t.msgLen = s.msgLen ∧ t.iter = s.iter ∧ t.key = s.key ∧ t.iv = s.iv ∧
      t.salt = s.salt ∧ t.blockIn = s.blockIn ∧ t.din = s.din ∧ t.turns = s.turns ∧ t.reply = s.reply ∧
      t.epoch = s.epoch) ∧
    (i ≠ .encBlock → i ≠ .decBlock → t.blockOut = s.blockOut) ∧
    (i ≠ .tagCompute → t.tag = s.tag) ∧
    (i ≠ .kdf → t.dkCk = s.dkCk ∧ t.dkAk = s.dkAk ∧ t.dkIv = s.dkIv) ∧
    (i ≠ .cbcEnc → i ≠ .cbcDec → (∀ hs, i ≠ .aeEncrypt hs) → i ≠ .aeDecrypt →
      t.dout = s.dout ∧ t.outLen = s.outLen) ∧
    (i ≠ .keyExpand → (∀ hs, i ≠ .aeEncrypt hs) → i ≠ .aeDecrypt →
      t.rk = s.rk ∧ t.nr = s.nr ∧ t.ksValid = s.ksValid) ∧
    (i ≠ .aeEncrypt false → t.draws = s.draws)

/-- The memory frame of every command: the stored bytes of DOUT are those below the new OUT_LEN, and every
other byte of DOUT, and every byte of DIN, reads as before (R124, R125). -/
def Obligations.OutputBytesPastOutLenAreKept : Prop :=
  ∀ (i : Instr) (s t : State), s.params.wf = true → exec i s = .next t →
    (∀ k, t.outLen.toNat ≤ k → t.windowByte .dout k = s.windowByte .dout k) ∧
    (∀ k, t.windowByte .din k = s.windowByte .din k)

/-- A command reads no byte of KEY at index KEY_LEN or above and no byte of DIN at index MSG_LEN or above
(R425, R702): two states that differ only there complete alike. -/
def Obligations.CommandsReadOnlyTheirOperands : Prop :=
  ∀ (i : Instr) (s t t' : State) (key' : Vector Byte 32) (din' : Memory),
    (∀ k < s.keyLen.toNat, { s with key := key', din := din' }.windowByte .key k = s.windowByte .key k) →
    (∀ k < s.msgLen.toNat, { s with key := key', din := din' }.windowByte .din k = s.windowByte .din k) →
    exec i s = .next t → exec i { s with key := key', din := din' } = .next t' →
    t' = { t with key := key', din := din' }

/-! ## Reset (70_reset_and_hazards.md) -/

/-- R701: the values after reset, of `State.reset` and of the state after a reset step from any state, in
the middle of a command too (R700). DIN and DOUT hold free values (R702), so no value is stated for them.
That a reset step keeps the pending turns is the model's choice, no rule of the spec (log entries 8 and 12). -/
def Obligations.ResetLeavesTheListedValues : Prop :=
  let listed (t : State) : Prop :=
    t.seq = .idle ∧ t.registerValue .id = 0x41455301 ∧ t.registerValue .cmd = 0 ∧
    t.registerValue .status = 0x00000000 ∧ t.busy = false ∧ t.done = false ∧ t.ksValid = false ∧
    t.bwerr = false ∧ t.errCode = 0 ∧ t.errDetail = 0 ∧
    t.registerValue .ie = 0x00000000 ∧ t.doneIe = false ∧ t.bwerrIe = false ∧
    t.registerValue .keyLen = 0 ∧ t.registerValue .msgLen = 0 ∧ t.registerValue .iter = 100000 ∧
    t.registerValue .outLen = 0 ∧ t.nr = 0 ∧
    t.registerValue .info = BitVec.ofNat 16 (t.params.dinBytes / 16) ++ (0 : BitVec 16) ∧
    (∀ (w : Window) (k : Nat), w ≠ .din → w ≠ .dout → t.windowByte w k = 0) ∧
    (∀ i : Fin 60, t.rk[i] = ⟨0, 0, 0, 0⟩) ∧ t.irq = false ∧
    (∀ off, targetAt t.params off = .reserved → t.readWord off = 0)
  listed State.reset ∧
  ∀ (s : State) (rest : List Turn), s.turns = .reset :: rest →
    ∃ t, step s = .next t ∧ listed t ∧ t.params = s.params ∧ t.turns = rest

/-- `State.reset` meets the invariant. -/
def Obligations.ResetMeetsTheInvariant : Prop := State.reset.Inv

/-- Every step keeps the invariant, from every state that meets it and for every order of the agents' turns:
the latched word stays legal, DONE and the error fields stay 0 while a command is in progress, ERR_CODE and
ERR_DETAIL stay among their values, NR and RK stay those of a schedule or 0, OUT_LEN stays within DOUT, and
the memories keep their canonical form and their windows. -/
def Obligations.StepKeepsTheInvariant : Prop := ∀ s t : State, s.Inv → step s = .next t → t.Inv

/-- From a state that meets the invariant no step stops with a fault: the engine never locks up (R600,
R605). -/
def Obligations.InvariantRulesOutFaults : Prop := ∀ s : State, s.Inv → s.NoFault

/-! ## The host bus (20_memory.md, 10_state.md) -/

/-- R203 and R204: an access of another width, or misaligned, gets ERROR, reads 0 and has no effect on any
state, BWERR included, whether the engine is busy or not. -/
def Obligations.WrongWidthOrMisalignedAccessHasNoEffect : Prop :=
  ∀ (s : State) (rest : List Turn) (addr n : Nat) (v : Word), s.params.wf = true →
    s.params.base ≤ addr → addr < s.params.base + 0x40000 → (n ≠ 4 ∨ (addr - s.params.base) % 4 ≠ 0) →
    (s.turns = .host (.read addr n) :: rest → step s = .next (replied s rest (.read .error 0x00000000))) ∧
    (s.turns = .host (.write addr n v) :: rest → step s = .next (replied s rest (.write .error)))

/-- An access outside the aperture is refused by name: it does not reach AES-CORE (R201). That the model
performs no step for it is 93_implementation_defined.md I9's "refuse" (log entry 9). -/
def Obligations.AccessOutsideTheApertureIsRefused : Prop :=
  ∀ (s : State) (rest : List Turn) (addr n : Nat) (v : Word),
    (addr < s.params.base ∨ s.params.base + 0x40000 ≤ addr) →
    (s.turns = .host (.read addr n) :: rest → step s = .refused .outsideAperture) ∧
    (s.turns = .host (.write addr n v) :: rest → step s = .refused .outsideAperture)

/-- A performed access (32 bits, aligned, in the aperture) is one step with the OKAY response, idle or
busy: a read replies with the word and changes nothing else, a write acts (R202, R209 to R211, R214). -/
def Obligations.AlignedAccessIsOneStep : Prop :=
  ∀ (s : State) (rest : List Turn) (off : Nat) (v : Word), off % 4 = 0 → off < 0x40000 →
    (s.turns = readTurn s off :: rest → step s = .next (replied s rest (.read .okay (s.readWord off)))) ∧
    (s.turns = writeTurn s off v :: rest → step s = .next (replied (s.writeWord off v) rest (.write .okay)))

/-- R212: a read of any width at any address of the aperture changes no state, and a second read of the
same address right after it gets the same reply. -/
def Obligations.ReadsHaveNoSideEffects : Prop :=
  ∀ (s : State) (rest : List Turn) (addr n : Nat), s.params.base ≤ addr → addr < s.params.base + 0x40000 →
    s.turns = .host (.read addr n) :: .host (.read addr n) :: rest →
    ∃ r, step s = .next (replied s (.host (.read addr n) :: rest) r) ∧
      step (replied s (.host (.read addr n) :: rest) r) = .next (replied s rest r)

/-- The map of R101: every aligned offset names one register, one byte of one window, or nothing. -/
def Obligations.OffsetsNameWhatTheMapLists : Prop :=
  ∀ (p : Params) (off : Nat), p.wf = true → off % 4 = 0 → off < 0x40000 →
    targetAt p off =
      (if off = 0x000 then .register .id
      else if off = 0x004 then .register .cmd
      else if off = 0x008 then .register .status
      else if off = 0x00C then .register .ie
      else if off = 0x010 then .register .keyLen
      else if off = 0x014 then .register .msgLen
      else if off = 0x018 then .register .iter
      else if off = 0x01C then .register .outLen
      else if off = 0x020 then .register .info
      else if off ≤ 0x03F then .reserved
      else if off ≤ 0x05F then .window .key (off - 0x040)
      else if off ≤ 0x06F then .window .iv (off - 0x060)
      else if off ≤ 0x07F then .window .salt (off - 0x070)
      else if off ≤ 0x09F then .window .tag (off - 0x080)
      else if off ≤ 0x0AF then .window .blockIn (off - 0x0A0)
      else if off ≤ 0x0BF then .window .blockOut (off - 0x0B0)
      else if off ≤ 0x0CF then .window .dkCk (off - 0x0C0)
      else if off ≤ 0x0DF then .window .dkAk (off - 0x0D0)
      else if off ≤ 0x0EF then .window .dkIv (off - 0x0E0)
      else if off ≤ 0x0FFFF then .reserved
      else if off ≤ 0x10000 + p.dinBytes - 1 then .window .din (off - 0x10000)
      else if off ≤ 0x1FFFF then .reserved
      else if off ≤ 0x20000 + p.doutBytes - 1 then .window .dout (off - 0x20000)
      else .reserved : Target)

/-- R209, the registers while IDLE: what each reads and what a write to each does; read-only registers and
reserved offsets ignore writes, KEY_LEN, MSG_LEN and ITER hold any value written (R112 to R114), and INFO has
NR in [7:0], 0 in [15:8] and DIN_BYTES / 16 in [31:16] (R116). -/
def Obligations.IdleRegisterAccesses : Prop :=
  ∀ (s : State) (v : Word), s.seq = .idle →
    (s.readWord 0x000 = 0x41455301 ∧ s.writeWord 0x000 v = s) ∧
    s.readWord 0x004 = 0 ∧
    (s.readWord 0x00C = s.ieWord ∧
      s.writeWord 0x00C v = { s with doneIe := v.getLsbD 0, bwerrIe := v.getLsbD 1 }) ∧
    (s.readWord 0x010 = s.keyLen ∧ s.writeWord 0x010 v = { s with keyLen := v }) ∧
    (s.readWord 0x014 = s.msgLen ∧ s.writeWord 0x014 v = { s with msgLen := v }) ∧
    (s.readWord 0x018 = s.iter ∧ s.writeWord 0x018 v = { s with iter := v }) ∧
    (s.readWord 0x01C = s.outLen ∧ s.writeWord 0x01C v = s) ∧
    (s.readWord 0x020 = s.infoWord ∧ s.infoWord.extractLsb' 0 8 = s.nr ∧ s.infoWord.extractLsb' 8 8 = 0 ∧
      s.infoWord.extractLsb' 16 16 = BitVec.ofNat 16 (s.params.dinBytes / 16) ∧ s.writeWord 0x020 v = s) ∧
    (∀ off, targetAt s.params off = .reserved → s.readWord off = 0 ∧ s.writeWord off v = s)

/-- R205: byte lanes are little-endian. While IDLE, a read of the word at byte 4j of a window (not KEY) is the
sum of its four bytes in lane order, and a write to one (not BLOCK_OUT or DOUT) stores all four bytes. A read
of a KEY word gives 0 (R117, R209). -/
def Obligations.WindowWordsAreLittleEndian : Prop :=
  ∀ (s : State) (w : Window) (j : Nat) (v : Word), s.seq = .idle → s.params.wf = true →
    4 * j < w.size s.params →
    (w ≠ .key → (s.readWord (w.start + 4 * j)).toNat =
      (s.windowByte w (4 * j)).toNat + 2 ^ 8 * (s.windowByte w (4 * j + 1)).toNat +
      2 ^ 16 * (s.windowByte w (4 * j + 2)).toNat + 2 ^ 24 * (s.windowByte w (4 * j + 3)).toNat) ∧
    (w = .key → s.readWord (w.start + 4 * j) = 0x00000000) ∧
    (w ≠ .blockOut → w ≠ .dout → ∀ i < 4,
      (s.writeWord (w.start + 4 * j) v).windowByte w (4 * j + i) = v.extractLsb' (8 * i) 8)

/-- The frame of a host write to a window while IDLE: every byte of every window outside the four of the
word addressed reads as before, and no register, no internal state and no pending turn changes; a write to
BLOCK_OUT or DOUT changes nothing at all (R209, R213). -/
def Obligations.WindowWriteChangesFourBytes : Prop :=
  ∀ (s : State) (w : Window) (j : Nat) (v : Word), s.seq = .idle → s.params.wf = true →
    4 * j < w.size s.params →
    let t := s.writeWord (w.start + 4 * j) v
    (∀ (w' : Window) (k : Nat), (w' ≠ w ∨ k < 4 * j ∨ 4 * j + 3 < k) → t.windowByte w' k = s.windowByte w' k) ∧
    (t.params = s.params ∧ t.seq = s.seq ∧ t.statusWord = s.statusWord ∧ t.ieWord = s.ieWord ∧
      t.infoWord = s.infoWord ∧ t.keyLen = s.keyLen ∧ t.msgLen = s.msgLen ∧ t.iter = s.iter ∧
      t.outLen = s.outLen ∧ t.rk = s.rk ∧ t.nr = s.nr ∧ t.turns = s.turns ∧ t.reply = s.reply ∧
      t.draws = s.draws ∧ t.epoch = s.epoch) ∧
    (w = .blockOut ∨ w = .dout → t = s)

/-- R210: while BUSY a read of ID, STATUS or IE returns its value, and a read of any other offset returns 0;
each gets OKAY. -/
def Obligations.BusyReadsShowIdStatusAndIe : Prop :=
  ∀ (s : State) (rest : List Turn) (c : Word) (off : Nat), s.seq = .busy c → off % 4 = 0 → off < 0x40000 →
    s.turns = readTurn s off :: rest →
    step s = .next (replied s rest (.read .okay
      (if off = 0x000 then 0x41455301
      else if off = 0x008 then s.statusWord
      else if off = 0x00C then s.ieWord
      else 0x00000000)))

/-- R211: while BUSY a write to STATUS or IE acts, and a write to any other aligned offset, CMD included,
changes nothing but STATUS.BWERR <- 1; each gets OKAY. -/
def Obligations.BusyWritesAreDropped : Prop :=
  ∀ (s : State) (rest : List Turn) (c v : Word) (off : Nat), s.seq = .busy c → off % 4 = 0 → off < 0x40000 →
    s.turns = writeTurn s off v :: rest →
    step s = .next (replied
      (if off = 0x008 then
        { s with done := s.done && !v.getLsbD 1, bwerr := s.bwerr && !v.getLsbD 3 }
      else if off = 0x00C then { s with doneIe := v.getLsbD 0, bwerrIe := v.getLsbD 1 }
      else { s with bwerr := true }) rest (.write .okay))

/-- R104: the fields of STATUS, which read the same idle or busy, its write-one-to-clear bits, which act the
same idle or busy, and its reset value. -/
def Obligations.StatusFieldsAndWriteOneToClear : Prop :=
  ∀ (s : State) (v : Word),
    (s.readWord 0x008 = s.statusWord ∧
      s.statusWord.getLsbD 0 = s.busy ∧ s.statusWord.getLsbD 1 = s.done ∧
      s.statusWord.getLsbD 2 = s.ksValid ∧ s.statusWord.getLsbD 3 = s.bwerr ∧
      s.statusWord.extractLsb' 4 4 = 0 ∧ s.statusWord.extractLsb' 8 4 = s.errCode ∧
      s.statusWord.extractLsb' 12 4 = s.errDetail ∧ s.statusWord.extractLsb' 16 16 = 0) ∧
    s.writeWord 0x008 v =
      { s with done := (if v.getLsbD 1 then false else s.done),
               bwerr := (if v.getLsbD 3 then false else s.bwerr) } ∧
    State.reset.statusWord = 0x00000000

/-- R111 and R134: IE holds DONE_IE and BWERR_IE and reads 0 elsewhere, idle or busy, and IRQ is
(DONE ∧ DONE_IE) ∨ (BWERR ∧ BWERR_IE) in every state. -/
def Obligations.InterruptEnableAndLevel : Prop :=
  ∀ (s : State) (v : Word),
    (s.readWord 0x00C = s.ieWord ∧ s.ieWord.getLsbD 0 = s.doneIe ∧ s.ieWord.getLsbD 1 = s.bwerrIe ∧
      s.ieWord.extractLsb' 2 30 = 0 ∧
      s.writeWord 0x00C v = { s with doneIe := v.getLsbD 0, bwerrIe := v.getLsbD 1 }) ∧
    State.reset.ieWord = 0x00000000 ∧
    s.irq = ((s.statusWord.getLsbD 1 && s.ieWord.getLsbD 0) || (s.statusWord.getLsbD 3 && s.ieWord.getLsbD 1)) ∧
    State.reset.irq = false

/-- R108: after any step BWERR is 1 exactly when that step dropped a write, or when it was 1 before and the
step was neither a reset nor a performed write to STATUS with bit 3 set. -/
def Obligations.BwerrIsSticky : Prop :=
  ∀ s t : State, step s = .next t →
    (t.bwerr = true ↔
      ((∃ (off : Nat) (v : Word) (rest : List Turn), s.busy = true ∧ off % 4 = 0 ∧ off < 0x40000 ∧
          off ≠ 0x008 ∧ off ≠ 0x00C ∧ s.turns = writeTurn s off v :: rest) ∨
        (s.bwerr = true ∧ (∀ rest, s.turns ≠ .reset :: rest) ∧
          ∀ (v : Word) (rest : List Turn), v.getLsbD 3 = true → s.turns ≠ writeTurn s 0x008 v :: rest)))

/-- KS_VALID goes to 1 only at the successful completion of KEY_EXPAND, and to 0 only at the completion of an
AE command or at reset; no host access changes it (R107). -/
def Obligations.KsValidChangesOnlyByKeyExpandAeAndReset : Prop :=
  ∀ s t : State, step s = .next t →
    (s.ksValid = false → t.ksValid = true →
      ∃ w, s.seq = .busy w ∧ decodeWord w = .ok .keyExpand ∧ t.seq = .idle ∧ t.errCode = 0) ∧
    (s.ksValid = true → t.ksValid = false →
      (∃ rest, s.turns = .reset :: rest) ∨
        ∃ w, s.seq = .busy w ∧ t.seq = .idle ∧
          (decodeWord w = .ok .aeDecrypt ∨ ∃ hs, decodeWord w = .ok (.aeEncrypt hs)))

/-- No host read, at any address, of any width, idle or busy, depends on KEY or on the RK store: what a read
replies is the same when both are replaced (R117, R130, R634). -/
def Obligations.HostReadsDoNotRevealKeyOrSchedule : Prop :=
  ∀ (s : State) (rest : List Turn) (addr n : Nat) (key' : Vector Byte 32) (rk' : RoundKeys) (r : Reply),
    s.turns = .host (.read addr n) :: rest →
    (step s = .next (replied s rest r) ↔
      step { s with key := key', rk := rk' } = .next (replied { s with key := key', rk := rk' } rest r))

/-! ## Tables and the field (40_tables_gf.md) -/

/-- R403: `xtime(a)` is a • 0x02, that is ((a << 1) ^ (0x1B if a[7])) cut to 8 bits, with its five examples. -/
def Obligations.XtimeIsMultiplicationByTwo : Prop :=
  (∀ a : Byte, xtime a = gmul a 0x02 ∧
    (xtime a).toNat = (2 * a.toNat % 256) ^^^ (if 128 ≤ a.toNat then 0x1B else 0)) ∧
  xtime 0x57 = 0xAE ∧ xtime 0xAE = 0x47 ∧ xtime 0x47 = 0x8E ∧ xtime 0x8E = 0x07 ∧ xtime 0x80 = 0x1B

/-- R402: multiplication is the eight-round shift and add of the rule, it is commutative and associative, it
distributes over `^`, it has identity 0x01 and is annihilated by 0x00. -/
def Obligations.FieldMultiplicationLaws : Prop :=
  (∀ a b : Byte, gmul a b =
    ((List.range 8).foldl (fun (x : Byte × Byte) k => (if b.getLsbD k then x.1 ^^^ x.2 else x.1, xtime x.2))
      (0x00, a)).1) ∧
  ∀ a b c : Byte,
    gmul a b = gmul b a ∧ gmul (gmul a b) c = gmul a (gmul b c) ∧
    gmul a (b ^^^ c) = gmul a b ^^^ gmul a c ∧ gmul a 0x01 = a ∧ gmul a 0x00 = 0x00

/-- R405: SBOX[x] is the affine map of the inverse of x: for every x there is a y with x • y = 0x01 (0x00 for
x = 0x00) whose bits give SBOX[x] by the rule's sum with c = 0x63. -/
def Obligations.SboxFollowsItsConstruction : Prop :=
  ∀ x : Byte, ∃ y : Byte, (if x = 0x00 then y = 0x00 else gmul x y = 0x01) ∧
    ∀ i < 8, (sbox x).getLsbD i =
      (y.getLsbD i ^^ y.getLsbD ((i + 4) % 8) ^^ y.getLsbD ((i + 5) % 8) ^^ y.getLsbD ((i + 6) % 8) ^^
        y.getLsbD ((i + 7) % 8) ^^ (0x63 : Byte).getLsbD i)

/-- INV_SBOX is the inverse of SBOX on both sides (R408), and INV_MIX the inverse of MIX on both sides
(R410), for every byte and every column. -/
def Obligations.InverseTablesInvert : Prop :=
  (∀ x : Byte, invSbox (sbox x) = x ∧ sbox (invSbox x) = x) ∧
  ∀ a : Word4, invMixColumn (mixColumn a) = a ∧ mixColumn (invMixColumn a) = a

/-! ## Key schedule (41_key_schedule.md) -/

/-- KEY_EXPAND (R425), every outcome: EMPTY_KEY for KEY_LEN = 0, INVALID_KEY_LENGTH for any other illegal length,
an earlier schedule staying in use, else NR, KS_VALID and RK written and nothing else changed but STATUS
and SEQ. RK then obeys R422 for each key length: the first Nk words are the key's (R420), every later word
of the 4·(Nr+1) obeys the recurrence (R421) with the round constant of its rotate event, and the words past
the schedule's end are 0 (R130). The round constants are those of R407: rc_1 = 0x01, rc_(j+1) = xtime(rc_j). -/
def Obligations.KeyExpandLoadsTheSchedule : Prop :=
  (rcon 1 = 0x01 ∧ ∀ j, 1 ≤ j → j < 10 → rcon (j + 1) = xtime (rcon j)) ∧
  ∀ s : State,
    (s.keyLen = 0 → exec .keyExpand s = .next (completed s 1 0)) ∧
    (s.keyLen ≠ 0 → ¬ KeyLenValid s → exec .keyExpand s = .next (completed s 3 0)) ∧
    (KeyLenValid s →
      let nk := s.keyLen.toNat / 4
      let nr := nk + 6
      ∃ t, exec .keyExpand s = .next t ∧
        t = { completed s 0 0 with rk := t.rk, nr := BitVec.ofNat 8 nr, ksValid := true } ∧
        (∀ i : Fin 60, i.val < nk → t.rk[i] =
          ⟨s.windowByte .key (4 * i), s.windowByte .key (4 * i + 1), s.windowByte .key (4 * i + 2),
            s.windowByte .key (4 * i + 3)⟩) ∧
        (∀ i p q : Fin 60, nk ≤ i.val → i.val < 4 * (nr + 1) → p.val + 1 = i.val → q.val + nk = i.val →
          t.rk[i] = xorWord4 t.rk[q]
            (if i.val % nk = 0 then
              ⟨sbox t.rk[p].b1 ^^^ rcon (i.val / nk), sbox t.rk[p].b2, sbox t.rk[p].b3, sbox t.rk[p].b0⟩
            else if nk = 8 ∧ i.val % nk = 4 then
              ⟨sbox t.rk[p].b0, sbox t.rk[p].b1, sbox t.rk[p].b2, sbox t.rk[p].b3⟩
            else t.rk[p])) ∧
        (∀ i : Fin 60, 4 * (nr + 1) ≤ i.val → t.rk[i] = ⟨0, 0, 0, 0⟩))

/-! ## Block cipher (42_block_cipher.md) -/

/-- R440 to R447 and R423, entry by entry: blocks and round keys fill a matrix column by column; AddRoundKey,
SubBytes, InvSubBytes, ShiftRows and InvShiftRows act on its entries, and MixColumns and InvMixColumns on each
column by the four sums of R409 and R410. -/
def Obligations.RoundPrimitivesByEntry : Prop :=
  ∀ (s k : Matrix) (b : Block) (rk : RoundKeys) (i r c : Nat), r < 4 → c < 4 →
    let a (row : Nat) := entry s row c
    some (entry (toMatrix b) r c) = b[r + 4 * c]? ∧
    some (entry s r c) = (fromMatrix s)[r + 4 * c]? ∧
    (∀ w, rk[4 * i + c]? = some w → entry (roundKey rk i) r c = [w.b0, w.b1, w.b2, w.b3].getD r 0) ∧
    entry (addRoundKey s k) r c = entry s r c ^^^ entry k r c ∧
    entry (subBytes s) r c = sbox (entry s r c) ∧
    entry (invSubBytes s) r c = invSbox (entry s r c) ∧
    entry (shiftRows s) r c = entry s r ((c + r) % 4) ∧
    entry (invShiftRows s) r c = entry s r ((c + 4 - r) % 4) ∧
    (entry (mixColumns s) 0 c = gmul 0x02 (a 0) ^^^ gmul 0x03 (a 1) ^^^ a 2 ^^^ a 3 ∧
      entry (mixColumns s) 1 c = a 0 ^^^ gmul 0x02 (a 1) ^^^ gmul 0x03 (a 2) ^^^ a 3 ∧
      entry (mixColumns s) 2 c = a 0 ^^^ a 1 ^^^ gmul 0x02 (a 2) ^^^ gmul 0x03 (a 3) ∧
      entry (mixColumns s) 3 c = gmul 0x03 (a 0) ^^^ a 1 ^^^ a 2 ^^^ gmul 0x02 (a 3)) ∧
    (entry (invMixColumns s) 0 c = gmul 0x0e (a 0) ^^^ gmul 0x0b (a 1) ^^^ gmul 0x0d (a 2) ^^^ gmul 0x09 (a 3) ∧
      entry (invMixColumns s) 1 c = gmul 0x09 (a 0) ^^^ gmul 0x0e (a 1) ^^^ gmul 0x0b (a 2) ^^^ gmul 0x0d (a 3) ∧
      entry (invMixColumns s) 2 c = gmul 0x0d (a 0) ^^^ gmul 0x09 (a 1) ^^^ gmul 0x0e (a 2) ^^^ gmul 0x0b (a 3) ∧
      entry (invMixColumns s) 3 c = gmul 0x0b (a 0) ^^^ gmul 0x0d (a 1) ^^^ gmul 0x09 (a 2) ^^^ gmul 0x0e (a 3))

/-- InvCipher undoes Cipher and Cipher undoes InvCipher, for every block, every store and every round count
(R451). -/
def Obligations.CipherAndInvCipherAreInverse : Prop :=
  ∀ (rk : RoundKeys) (nr : Nat) (b : Block),
    invCipher rk nr (cipher rk nr b) = b ∧ cipher rk nr (invCipher rk nr b) = b

/-- ENC_BLOCK and DEC_BLOCK, every outcome: 7/1 without a schedule, else BLOCK_OUT gets the cipher or the inverse
cipher of BLOCK_IN under RK and NR, and nothing else changes but STATUS and SEQ (R455, R456). The cipher is
written out round by round for the three round counts (R449, R450). -/
def Obligations.BlockCommandsRunTheEngine : Prop :=
  ∀ s : State,
    (s.ksValid = false →
      exec .encBlock s = .next (completed s 7 1) ∧ exec .decBlock s = .next (completed s 7 1)) ∧
    (s.ksValid = true → (s.nr = 10 ∨ s.nr = 12 ∨ s.nr = 14) →
      let nr := s.nr.toNat
      let key := roundKey s.rk
      let enc (m : Matrix) (i : Nat) := addRoundKey (mixColumns (shiftRows (subBytes m))) (key i)
      let dec (m : Matrix) (i : Nat) := invSubBytes (invShiftRows (invMixColumns (addRoundKey m (key i))))
      let encMiddle := ((List.range (nr - 1)).map (· + 1)).foldl enc (addRoundKey (toMatrix s.blockIn) (key 0))
      let decMiddle := ((List.range (nr - 1)).map (nr - 1 - ·)).foldl dec
        (invSubBytes (invShiftRows (addRoundKey (toMatrix s.blockIn) (key nr))))
      exec .encBlock s = .next { completed s 0 0 with
        blockOut := fromMatrix (addRoundKey (shiftRows (subBytes encMiddle)) (key nr)) } ∧
      exec .decBlock s = .next { completed s 0 0 with blockOut := fromMatrix (addRoundKey decMiddle (key 0)) })

/-- DEC_BLOCK after ENC_BLOCK, with BLOCK_OUT copied into BLOCK_IN, returns the original block, for every
schedule (R456). -/
def Obligations.DecBlockUndoesEncBlock : Prop :=
  ∀ s t : State, s.ksValid = true → exec .encBlock s = .next t →
    ∃ u, exec .decBlock { t with blockIn := t.blockOut } = .next u ∧ u.blockOut = s.blockIn ∧
      u.errCode = 0 ∧ u.rk = s.rk ∧ u.nr = s.nr ∧ u.ksValid = true

/-! ## Chained mode (43_chained_mode.md) -/

/-- R470 and R471: the padded length is 16·(L div 16 + 1), a positive multiple of 16 and longer than L, the
message stands first, every added byte is the pad length, and the empty message pads to sixteen 0x10
bytes. -/
def Obligations.PadAppendsItsLength : Prop :=
  (∀ m : List Byte,
    (pad m).length = 16 * (m.length / 16 + 1) ∧ (pad m).length % 16 = 0 ∧ m.length < (pad m).length ∧
    (pad m).take m.length = m ∧
    ∀ b ∈ (pad m).drop m.length, b.toNat = 16 - m.length % 16) ∧
  pad [] = List.replicate 16 0x10

/-- Unpad of a string of a positive multiple of 16 bytes succeeds exactly when the last byte p is from 1 to 16 and
the last p bytes all equal p, and then removes those p bytes (R472); it undoes Pad for every message, and
sixteen 0x10 bytes give the empty string (R473). -/
def Obligations.UnpadAcceptsExactlyValidPadding : Prop :=
  (∀ m : List Byte, 0 < m.length → m.length % 16 = 0 →
    ∀ r, unpad m = some r ↔
      PaddingValid (fun k => m.getD k 0) m.length ∧ r = m.take (m.length - (m.getD (m.length - 1) 0).toNat)) ∧
  (∀ m : List Byte, unpad (pad m) = some m) ∧ unpad (List.replicate 16 0x10) = some []

/-- CBC_ENC (R480), every outcome: 7/1, 7/2, or success with OUT_LEN = 16·(L div 16 + 1), each ciphertext
block the cipher of its padded block combined with the block before it, or with IV (R474), the bytes of
DOUT past OUT_LEN kept, and nothing else changed but STATUS and SEQ. -/
def Obligations.CbcEncChainsPaddedBlocks : Prop :=
  ∀ s : State, s.params.wf = true →
    (s.ksValid = false → exec .cbcEnc s = .next (cbcFailed s 7 1)) ∧
    (s.ksValid = true → ¬ MessageFits s → exec .cbcEnc s = .next (cbcFailed s 7 2)) ∧
    (s.ksValid = true → MessageFits s →
      let n := paddedBlocks s.msgLen.toNat
      ∃ t, exec .cbcEnc s = .next t ∧
        t = { completed s 0 0 with dout := t.dout, outLen := BitVec.ofNat 32 (16 * n) } ∧
        CbcChain (cipher s.rk s.nr.toNat) s.iv (paddedBlock s) (fun j => windowBlock t .dout (16 * j)) n ∧
        ∀ k, 16 * n ≤ k → t.windowByte .dout k = s.windowByte .dout k)

/-- CBC_DEC (R481), every outcome in order: 7/1, 7/2, 7/3, PADDING_ERROR, or success with the padding removed:
DOUT gets the first L - p bytes of CbcDecryptRaw, OUT_LEN is L - p, the other bytes of DOUT are kept, and
nothing else changes but STATUS and SEQ. -/
def Obligations.CbcDecRemovesValidPadding : Prop :=
  ∀ s : State, s.params.wf = true →
    let len := s.msgLen.toNat
    let q := rawPlainByte s (invCipher s.rk s.nr.toNat) s.iv 0
    (s.ksValid = false → exec .cbcDec s = .next (cbcFailed s 7 1)) ∧
    (s.ksValid = true → ¬ MessageFits s → exec .cbcDec s = .next (cbcFailed s 7 2)) ∧
    (s.ksValid = true → MessageFits s → (len = 0 ∨ len % 16 ≠ 0) → exec .cbcDec s = .next (cbcFailed s 7 3)) ∧
    (s.ksValid = true → MessageFits s → 0 < len → len % 16 = 0 → ¬ PaddingValid q len →
      exec .cbcDec s = .next (cbcFailed s 6 0)) ∧
    (s.ksValid = true → MessageFits s → 0 < len → len % 16 = 0 → PaddingValid q len →
      let out := len - (q (len - 1)).toNat
      ∃ t, exec .cbcDec s = .next t ∧
        t = { completed s 0 0 with dout := t.dout, outLen := BitVec.ofNat 32 out } ∧
        (∀ k < out, t.windowByte .dout k = q k) ∧
        ∀ k, out ≤ k → t.windowByte .dout k = s.windowByte .dout k)

/-- CBC_DEC of what CBC_ENC wrote, under the same schedule and IV, returns the message, for every message whose
ciphertext fits DIN (R476). -/
def Obligations.CbcDecUndoesCbcEnc : Prop :=
  ∀ s t u : State, s.params.wf = true → s.ksValid = true → MessageFits s → exec .cbcEnc s = .next t →
    u.params = s.params → u.rk = s.rk → u.nr = s.nr → u.ksValid = true → u.iv = s.iv →
    u.msgLen = t.outLen → MessageFits u → (∀ k < t.outLen.toNat, u.windowByte .din k = t.windowByte .dout k) →
    ∃ v, exec .cbcDec u = .next v ∧ v.errCode = 0 ∧ v.outLen = s.msgLen ∧
      ∀ k < s.msgLen.toNat, v.windowByte .dout k = s.windowByte .din k

/-- R477: two ciphertexts that differ in block j alone decrypt to plaintexts that differ in blocks j and j+1
alone; block j is the inverse cipher of its own ciphertext block combined with the one before it, and block
j+1 differs by exactly the ciphertext's difference. -/
def Obligations.CbcErrorPropagation : Prop :=
  ∀ (rk : RoundKeys) (nr : Nat) (iv : Block) (x x' : List Block) (j : Nat), x.length = x'.length →
    (∀ k, k ≠ j → x[k]? = x'[k]?) →
    let p := cbcDecBlocks (invCipher rk nr) iv x
    let p' := cbcDecBlocks (invCipher rk nr) iv x'
    (∀ k, k ≠ j → k ≠ j + 1 → p[k]? = p'[k]?) ∧
    (∀ y z, x[j]? = some y → p[j]? = some z →
      z = xorBytes (invCipher rk nr y) (if j = 0 then iv else x.getD (j - 1) iv)) ∧
    (∀ y y' z z', x[j]? = some y → x'[j]? = some y' → p[j + 1]? = some z → p'[j + 1]? = some z' →
      xorBytes z z' = xorBytes y y')

/-! ## Hash, key derivation and tags (44_hash_kdf.md, 45_mac.md) -/

/-- The known answers of R505, R511 and R515: SHA-256 of "abc" and of the empty message, HMAC of RFC 4231 test
case 1, PBKDF2 of "password" and "salt" for 1 and 2 iterations. -/
def Obligations.HashKnownAnswers : Prop :=
  let bytes (h : List Nat) : List Byte := h.map (BitVec.ofNat 8)
  let number (l : List Byte) : Nat := l.foldl (fun n b => 256 * n + b.toNat) 0
  number (sha256 (bytes [0x61, 0x62, 0x63])).toList =
    0xba7816bf8f01cfea414140de5dae2223b00361a396177a9cb410ff61f20015ad ∧
  number (sha256 []).toList = 0xe3b0c44298fc1c149afbf4c8996fb92427ae41e4649b934ca495991b7852b855 ∧
  number (hmac (List.replicate 20 0x0b) (bytes [0x48, 0x69, 0x20, 0x54, 0x68, 0x65, 0x72, 0x65])).toList =
    0xb0344c61d8db38535ca8afceaf0bf12b881dc200c9833da726e9376c2e32cff7 ∧
  let password := bytes [0x70, 0x61, 0x73, 0x73, 0x77, 0x6f, 0x72, 0x64]
  let salt := bytes [0x73, 0x61, 0x6c, 0x74]
  number (pbkdf2 password salt 1 48) =
    0x120fb6cffcf8b32c43e7225256c4f837a86548c92ccc35480805987cb70be17b4dbf3a2f3dad3377264bb7b8e8330d4e ∧
  number (pbkdf2 password salt 2 48) =
    0xae4d0c95af6b46d32d0adff928f06dd02a303f8ef3c251dfd6e2d85a95474c43830651afcb5c862f0b249bd031f7a675

/-- The padded message of SHA-256 (R501): the message, 0x80, zero bytes up to 8 below the next multiple of 64,
and the bit length in 8 big-endian bytes. -/
def Obligations.ShaPaddingFillsWholeBlocks : Prop :=
  ∀ m : List Byte, m.length < 2 ^ 61 →
    ∃ z : Nat, z < 64 ∧ (m.length + 1 + z + 8) % 64 = 0 ∧
      (shaPad m).length = m.length + 1 + z + 8 ∧ (shaPad m).take m.length = m ∧
      (shaPad m)[m.length]? = some 0x80 ∧
      (∀ k < z, (shaPad m)[m.length + 1 + k]? = some 0x00) ∧
      ((shaPad m).drop (m.length + 1 + z)).foldl (fun n b => 256 * n + b.toNat) 0 = 8 * m.length

/-- HMAC(K, M) for a key of at most 64 bytes is the nested hash of R510, and a longer key is hashed first. -/
def Obligations.HmacIsTheNestedHash : Prop :=
  ∀ k m : List Byte,
    (k.length ≤ 64 → hmac k m =
      sha256 (((List.range 64).map fun i => k.getD i 0 ^^^ 0x5c) ++
        (sha256 (((List.range 64).map fun i => k.getD i 0 ^^^ 0x36) ++ m)).toList)) ∧
    (64 < k.length → hmac k m = hmac (sha256 k).toList m)

/-- KDF (R520), every outcome: INVALID_KEY_LENGTH above 32, then 7/5 for ITER = 0, else DK_CK, DK_AK and DK_IV get
the two halves of T_1 and the first half of T_2 of PBKDF2 (R512, R513), and nothing else changes but STATUS
and SEQ. -/
def Obligations.KdfWritesTheDerivedKeys : Prop :=
  ∀ s : State,
    (32 < s.keyLen.toNat → exec .kdf s = .next (completed s 3 0)) ∧
    (s.keyLen.toNat ≤ 32 → s.iter = 0 → exec .kdf s = .next (completed s 7 5)) ∧
    (s.keyLen.toNat ≤ 32 → s.iter ≠ 0 →
      let d := derivedKeys (password s) (windowBytes s .salt 0 16) s.iter.toNat
      exec .kdf s = .next { completed s 0 0 with dkCk := d.ck, dkAk := d.ak, dkIv := d.iv })

/-- R542: the constant-time comparison's value is plain equality. -/
def Obligations.ConstantTimeComparisonIsEquality : Prop := ∀ a b : Digest, ctEqual a b = true ↔ a = b

/-- TAG_COMPUTE (R540) and TAG_VERIFY (R541), every outcome: 7/2 for a message longer than DIN; else TAG_COMPUTE
writes HMAC(DK_AK, SALT || DIN[0:MSG_LEN)) to TAG, and TAG_VERIFY succeeds exactly when TAG equals it, fails
with INTEGRITY_FAILURE when not, and writes nothing. Nothing else changes but STATUS and SEQ. -/
def Obligations.TagCommandsComputeAndCompareTheHmac : Prop :=
  ∀ s : State,
    let expected := hmac (windowBytes s .dkAk 0 16) (windowBytes s .salt 0 16 ++ message s)
    (¬ MessageFits s →
      exec .tagCompute s = .next (completed s 7 2) ∧ exec .tagVerify s = .next (completed s 7 2)) ∧
    (MessageFits s →
      exec .tagCompute s = .next { completed s 0 0 with tag := expected } ∧
      (s.tag = expected → exec .tagVerify s = .next (completed s 0 0)) ∧
      (s.tag ≠ expected → exec .tagVerify s = .next (completed s 5 0)))

/-! ## Authenticated encryption (46_ae_api.md) -/

/-- R561: the first failing check of AE_ENCRYPT decides the error, in the order of its six steps, with HS = 0 and
HS = 1 alike; no entropy is drawn and nothing changes but what R604 and R566 name. -/
def Obligations.AeEncryptValidationOrder : Prop :=
  ∀ (s : State) (hs : Bool),
    let code (c d : BitVec 4) : Prop := exec (.aeEncrypt hs) s = .next (aeFailed s c d)
    let ascii : Prop := ∀ k < s.msgLen.toNat, (s.windowByte .din k).toNat ≤ 0x7F
    (s.keyLen = 0 → code 1 0) ∧
    (s.keyLen ≠ 0 → ¬ KeyLenValid s → code 3 0) ∧
    (KeyLenValid s → s.msgLen = 0 → code 2 0) ∧
    (KeyLenValid s → s.msgLen ≠ 0 → ¬ MessageFits s → code 7 2) ∧
    (KeyLenValid s → s.msgLen ≠ 0 → MessageFits s → ¬ ascii → code 4 0) ∧
    (KeyLenValid s → s.msgLen ≠ 0 → MessageFits s → ascii → s.iter = 0 → code 7 5)

/-- R564: the first failing check of AE_DECRYPT decides the error, in the order of its six steps; nothing changes
but what R604 and R566 name. -/
def Obligations.AeDecryptValidationOrder : Prop :=
  ∀ s : State,
    let code (c d : BitVec 4) : Prop := exec .aeDecrypt s = .next (aeFailed s c d)
    let len := s.msgLen.toNat
    (s.keyLen = 0 → code 1 0) ∧
    (s.keyLen ≠ 0 → ¬ KeyLenValid s → code 3 0) ∧
    (KeyLenValid s → s.msgLen = 0 → code 2 0) ∧
    (KeyLenValid s → s.msgLen ≠ 0 → ¬ MessageFits s → code 7 2) ∧
    (KeyLenValid s → s.msgLen ≠ 0 → MessageFits s → (len % 16 ≠ 0 ∨ len < 64) → code 7 4) ∧
    (KeyLenValid s → MessageFits s → len % 16 = 0 → 64 ≤ len → s.iter = 0 → code 7 5)

/-- AE_ENCRYPT when its checks pass, with HS = 0 and HS = 1 (R562): OUT_LEN is 48 + 16·(L div 16 + 1) and DOUT holds the
wire blob of R560: the tag HMAC(AK, salt || ciphertext), the salt, which is SALT or one entropy draw, and
the CBC chain of the padded message under the derived CK, with Nr = 10, and IV. The other bytes of DOUT are
kept, RK, NR and KS_VALID are cleared (R566), and nothing else changes but STATUS, SEQ and the count of
draws: the DK windows, TAG, SALT, IV, BLOCK_OUT and KEY are not written (R568). -/
def Obligations.AeEncryptBuildsTheWireBlob : Prop :=
  ∀ (s : State) (hs : Bool), s.params.wf = true → EncryptPasses s →
    let n := paddedBlocks s.msgLen.toNat
    let salt := if hs then s.salt else Config.entropyDraw s.draws
    let d := derivedKeys (password s) salt.toList s.iter.toNat
    ∃ t, exec (.aeEncrypt hs) s = .next t ∧
      t = { scheduleCleared (completed s 0 0) with
        dout := t.dout, outLen := BitVec.ofNat 32 (48 + 16 * n), draws := s.draws + (if hs then 0 else 1) } ∧
      windowBlock t .dout 32 = salt ∧
      CbcChain (cipher (schedule d.ck) 10) d.iv (paddedBlock s) (fun j => windowBlock t .dout (48 + 16 * j)) n ∧
      windowBytes t .dout 0 32 = (hmac d.ak.toList (salt.toList ++ windowBytes t .dout 48 (16 * n))).toList ∧
      ∀ k, 48 + 16 * n ≤ k → t.windowByte .dout k = s.windowByte .dout k

/-- AE_DECRYPT when its checks pass (R565): INTEGRITY_FAILURE exactly when the blob's tag is not the HMAC of its salt
and ciphertext under the derived AK; with the right tag PADDING_ERROR when the padding is invalid, else
success with the plaintext in DOUT, whose other bytes are kept. RK, NR and KS_VALID are cleared in every
case and nothing else changes (R566, R568). -/
def Obligations.AeDecryptAuthenticatesThenDecrypts : Prop :=
  ∀ s : State, s.params.wf = true → DecryptPasses s →
    let len := s.msgLen.toNat - 48
    let salt := windowBytes s .din 32 16
    let d := derivedKeys (password s) salt s.iter.toNat
    let tagRight : Prop := windowBytes s .din 0 32 = (hmac d.ak.toList (salt ++ windowBytes s .din 48 len)).toList
    let q := rawPlainByte s (invCipher (schedule d.ck) 10) d.iv 48
    (¬ tagRight → exec .aeDecrypt s = .next (aeFailed s 5 0)) ∧
    (tagRight → ¬ PaddingValid q len → exec .aeDecrypt s = .next (aeFailed s 6 0)) ∧
    (tagRight → PaddingValid q len →
      let out := len - (q (len - 1)).toNat
      ∃ t, exec .aeDecrypt s = .next t ∧
        t = { scheduleCleared (completed s 0 0) with dout := t.dout, outLen := BitVec.ofNat 32 out } ∧
        (∀ k < out, t.windowByte .dout k = q k) ∧
        ∀ k, out ≤ k → t.windowByte .dout k = s.windowByte .dout k)

/-- R566: at the completion of every AE command, whatever its outcome, RK, NR and KS_VALID are 0, and the next
block or CBC command, in any state that keeps them so, fails with CONTRACT_VIOLATION detail 1. -/
def Obligations.AeCommandsClearTheSchedule : Prop :=
  ∀ (i : Instr) (s t : State), (i = .aeDecrypt ∨ ∃ hs, i = .aeEncrypt hs) → exec i s = .next t →
    (∀ k : Fin 60, t.rk[k] = ⟨0, 0, 0, 0⟩) ∧ t.nr = 0 ∧ t.ksValid = false ∧
    ∀ j u, (j = .encBlock ∨ j = .decBlock ∨ j = .cbcEnc ∨ j = .cbcDec) → exec j t = .next u →
      u.errCode = 7 ∧ u.errDetail = 1

/-- AE_DECRYPT of the blob AE_ENCRYPT wrote, with the same password and ITER, returns the message, for every
password of 16, 24 or 32 bytes, every ASCII message whose blob fits DIN, and every salt, drawn or given
(R569). -/
def Obligations.AeDecryptUndoesAeEncrypt : Prop :=
  ∀ (s t u : State) (hs : Bool), s.params.wf = true → EncryptPasses s → exec (.aeEncrypt hs) s = .next t →
    u.params = s.params → u.keyLen = s.keyLen → (∀ k < s.keyLen.toNat, u.windowByte .key k = s.windowByte .key k) →
    u.iter = s.iter → u.msgLen = t.outLen → MessageFits u →
    (∀ k < t.outLen.toNat, u.windowByte .din k = t.windowByte .dout k) →
    ∃ v, exec .aeDecrypt u = .next v ∧ v.errCode = 0 ∧ v.outLen = s.msgLen ∧
      ∀ k < s.msgLen.toNat, v.windowByte .dout k = s.windowByte .din k

/-- Suppose AE_DECRYPT succeeds on a blob: on any blob of the same length that differs from it in the tag field
alone, AE_DECRYPT raises INTEGRITY_FAILURE and writes no plaintext (R571). -/
def Obligations.TamperedTagIsRejected : Prop :=
  ∀ (s t u : State), exec .aeDecrypt s = .next t → t.errCode = 0 →
    u.params = s.params → u.keyLen = s.keyLen → (∀ k < s.keyLen.toNat, u.windowByte .key k = s.windowByte .key k) →
    u.iter = s.iter → u.msgLen = s.msgLen →
    (∀ k, 32 ≤ k → k < s.msgLen.toNat → u.windowByte .din k = s.windowByte .din k) →
    (∃ k, k < 32 ∧ u.windowByte .din k ≠ s.windowByte .din k) →
    exec .aeDecrypt u = .next (aeFailed u 5 0)

/-- R570: AE_ENCRYPT with HS = 1 gives the blob that the primitive commands compose: KDF; KEY_EXPAND of DK_CK;
CBC_ENC under DK_IV; TAG_COMPUTE over the ciphertext. The host's writes between the commands are the
hypotheses on a', b' and c'. -/
def Obligations.AeEncryptIsTheCompositionOfPrimitives : Prop :=
  ∀ s a a' b b' c c' d e : State, s.params.wf = true → EncryptPasses s →
    exec .kdf s = .next a →
    (∀ k < 16, a'.windowByte .key k = a.windowByte .dkCk k) →
      a' = { a with key := a'.key, keyLen := 16 } →
    exec .keyExpand a' = .next b → b' = { b with iv := b.dkIv } →
    exec .cbcEnc b' = .next c → (∀ k < c.outLen.toNat, c'.windowByte .din k = c.windowByte .dout k) →
      c' = { c with din := c'.din, msgLen := c.outLen } → MessageFits c' →
    exec .tagCompute c' = .next d → exec (.aeEncrypt true) s = .next e →
    e.errCode = 0 ∧ e.outLen.toNat = 48 + d.outLen.toNat ∧
    windowBytes e .dout 0 32 = d.tag.toList ∧ windowBytes e .dout 32 16 = d.salt.toList ∧
    windowBytes e .dout 48 d.outLen.toNat = windowBytes d .dout 0 d.outLen.toNat
end

