-- ==== Sys2Proof/Laws/State.lean ====
section
/-! SUPPORT. One lemma for each field under each named update of the state, true by rfl, so that no proof
unfolds a record update. -/

namespace Sys2Proof.Machine

/-! ## `State.finish` (R611) -/

@[simp] theorem State.finish_params (c d : BitVec 4) (s : State) : (s.finish c d).params = s.params := rfl
@[simp] theorem State.finish_seq (c d : BitVec 4) (s : State) : (s.finish c d).seq = .idle := rfl
@[simp] theorem State.finish_done (c d : BitVec 4) (s : State) : (s.finish c d).done = true := rfl
@[simp] theorem State.finish_ksValid (c d : BitVec 4) (s : State) : (s.finish c d).ksValid = s.ksValid := rfl
@[simp] theorem State.finish_bwerr (c d : BitVec 4) (s : State) : (s.finish c d).bwerr = s.bwerr := rfl
@[simp] theorem State.finish_errCode (c d : BitVec 4) (s : State) : (s.finish c d).errCode = c := rfl
@[simp] theorem State.finish_errDetail (c d : BitVec 4) (s : State) : (s.finish c d).errDetail = d := rfl
@[simp] theorem State.finish_doneIe (c d : BitVec 4) (s : State) : (s.finish c d).doneIe = s.doneIe := rfl
@[simp] theorem State.finish_bwerrIe (c d : BitVec 4) (s : State) : (s.finish c d).bwerrIe = s.bwerrIe := rfl
@[simp] theorem State.finish_keyLen (c d : BitVec 4) (s : State) : (s.finish c d).keyLen = s.keyLen := rfl
@[simp] theorem State.finish_msgLen (c d : BitVec 4) (s : State) : (s.finish c d).msgLen = s.msgLen := rfl
@[simp] theorem State.finish_iter (c d : BitVec 4) (s : State) : (s.finish c d).iter = s.iter := rfl
@[simp] theorem State.finish_outLen (c d : BitVec 4) (s : State) : (s.finish c d).outLen = s.outLen := rfl
@[simp] theorem State.finish_key (c d : BitVec 4) (s : State) : (s.finish c d).key = s.key := rfl
@[simp] theorem State.finish_iv (c d : BitVec 4) (s : State) : (s.finish c d).iv = s.iv := rfl
@[simp] theorem State.finish_salt (c d : BitVec 4) (s : State) : (s.finish c d).salt = s.salt := rfl
@[simp] theorem State.finish_tag (c d : BitVec 4) (s : State) : (s.finish c d).tag = s.tag := rfl
@[simp] theorem State.finish_blockIn (c d : BitVec 4) (s : State) : (s.finish c d).blockIn = s.blockIn := rfl
@[simp] theorem State.finish_blockOut (c d : BitVec 4) (s : State) : (s.finish c d).blockOut = s.blockOut := rfl
@[simp] theorem State.finish_dkCk (c d : BitVec 4) (s : State) : (s.finish c d).dkCk = s.dkCk := rfl
@[simp] theorem State.finish_dkAk (c d : BitVec 4) (s : State) : (s.finish c d).dkAk = s.dkAk := rfl
@[simp] theorem State.finish_dkIv (c d : BitVec 4) (s : State) : (s.finish c d).dkIv = s.dkIv := rfl
@[simp] theorem State.finish_din (c d : BitVec 4) (s : State) : (s.finish c d).din = s.din := rfl
@[simp] theorem State.finish_dout (c d : BitVec 4) (s : State) : (s.finish c d).dout = s.dout := rfl
@[simp] theorem State.finish_rk (c d : BitVec 4) (s : State) : (s.finish c d).rk = s.rk := rfl
@[simp] theorem State.finish_nr (c d : BitVec 4) (s : State) : (s.finish c d).nr = s.nr := rfl
@[simp] theorem State.finish_turns (c d : BitVec 4) (s : State) : (s.finish c d).turns = s.turns := rfl
@[simp] theorem State.finish_reply (c d : BitVec 4) (s : State) : (s.finish c d).reply = s.reply := rfl
@[simp] theorem State.finish_draws (c d : BitVec 4) (s : State) : (s.finish c d).draws = s.draws := rfl
@[simp] theorem State.finish_epoch (c d : BitVec 4) (s : State) : (s.finish c d).epoch = s.epoch := rfl

/-! ## `State.accept` (R610) -/

@[simp] theorem State.accept_params (v : Word) (s : State) : (s.accept v).params = s.params := rfl
@[simp] theorem State.accept_seq (v : Word) (s : State) : (s.accept v).seq = .busy v := rfl
@[simp] theorem State.accept_done (v : Word) (s : State) : (s.accept v).done = false := rfl
@[simp] theorem State.accept_ksValid (v : Word) (s : State) : (s.accept v).ksValid = s.ksValid := rfl
@[simp] theorem State.accept_bwerr (v : Word) (s : State) : (s.accept v).bwerr = s.bwerr := rfl
@[simp] theorem State.accept_errCode (v : Word) (s : State) : (s.accept v).errCode = 0 := rfl
@[simp] theorem State.accept_errDetail (v : Word) (s : State) : (s.accept v).errDetail = 0 := rfl
@[simp] theorem State.accept_doneIe (v : Word) (s : State) : (s.accept v).doneIe = s.doneIe := rfl
@[simp] theorem State.accept_bwerrIe (v : Word) (s : State) : (s.accept v).bwerrIe = s.bwerrIe := rfl
@[simp] theorem State.accept_keyLen (v : Word) (s : State) : (s.accept v).keyLen = s.keyLen := rfl
@[simp] theorem State.accept_msgLen (v : Word) (s : State) : (s.accept v).msgLen = s.msgLen := rfl
@[simp] theorem State.accept_iter (v : Word) (s : State) : (s.accept v).iter = s.iter := rfl
@[simp] theorem State.accept_outLen (v : Word) (s : State) : (s.accept v).outLen = s.outLen := rfl
@[simp] theorem State.accept_key (v : Word) (s : State) : (s.accept v).key = s.key := rfl
@[simp] theorem State.accept_iv (v : Word) (s : State) : (s.accept v).iv = s.iv := rfl
@[simp] theorem State.accept_salt (v : Word) (s : State) : (s.accept v).salt = s.salt := rfl
@[simp] theorem State.accept_tag (v : Word) (s : State) : (s.accept v).tag = s.tag := rfl
@[simp] theorem State.accept_blockIn (v : Word) (s : State) : (s.accept v).blockIn = s.blockIn := rfl
@[simp] theorem State.accept_blockOut (v : Word) (s : State) : (s.accept v).blockOut = s.blockOut := rfl
@[simp] theorem State.accept_dkCk (v : Word) (s : State) : (s.accept v).dkCk = s.dkCk := rfl
@[simp] theorem State.accept_dkAk (v : Word) (s : State) : (s.accept v).dkAk = s.dkAk := rfl
@[simp] theorem State.accept_dkIv (v : Word) (s : State) : (s.accept v).dkIv = s.dkIv := rfl
@[simp] theorem State.accept_din (v : Word) (s : State) : (s.accept v).din = s.din := rfl
@[simp] theorem State.accept_dout (v : Word) (s : State) : (s.accept v).dout = s.dout := rfl
@[simp] theorem State.accept_rk (v : Word) (s : State) : (s.accept v).rk = s.rk := rfl
@[simp] theorem State.accept_nr (v : Word) (s : State) : (s.accept v).nr = s.nr := rfl
@[simp] theorem State.accept_turns (v : Word) (s : State) : (s.accept v).turns = s.turns := rfl
@[simp] theorem State.accept_reply (v : Word) (s : State) : (s.accept v).reply = s.reply := rfl
@[simp] theorem State.accept_draws (v : Word) (s : State) : (s.accept v).draws = s.draws := rfl
@[simp] theorem State.accept_epoch (v : Word) (s : State) : (s.accept v).epoch = s.epoch := rfl

/-! ## `State.rejectCommand` (R612) -/

@[simp] theorem State.rejectCommand_params (s : State) : (s.rejectCommand).params = s.params := rfl
@[simp] theorem State.rejectCommand_seq (s : State) : (s.rejectCommand).seq = s.seq := rfl
@[simp] theorem State.rejectCommand_done (s : State) : (s.rejectCommand).done = true := rfl
@[simp] theorem State.rejectCommand_ksValid (s : State) : (s.rejectCommand).ksValid = s.ksValid := rfl
@[simp] theorem State.rejectCommand_bwerr (s : State) : (s.rejectCommand).bwerr = s.bwerr := rfl
@[simp] theorem State.rejectCommand_errCode (s : State) : (s.rejectCommand).errCode = 8 := rfl
@[simp] theorem State.rejectCommand_errDetail (s : State) : (s.rejectCommand).errDetail = 0 := rfl
@[simp] theorem State.rejectCommand_doneIe (s : State) : (s.rejectCommand).doneIe = s.doneIe := rfl
@[simp] theorem State.rejectCommand_bwerrIe (s : State) : (s.rejectCommand).bwerrIe = s.bwerrIe := rfl
@[simp] theorem State.rejectCommand_keyLen (s : State) : (s.rejectCommand).keyLen = s.keyLen := rfl
@[simp] theorem State.rejectCommand_msgLen (s : State) : (s.rejectCommand).msgLen = s.msgLen := rfl
@[simp] theorem State.rejectCommand_iter (s : State) : (s.rejectCommand).iter = s.iter := rfl
@[simp] theorem State.rejectCommand_outLen (s : State) : (s.rejectCommand).outLen = s.outLen := rfl
@[simp] theorem State.rejectCommand_key (s : State) : (s.rejectCommand).key = s.key := rfl
@[simp] theorem State.rejectCommand_iv (s : State) : (s.rejectCommand).iv = s.iv := rfl
@[simp] theorem State.rejectCommand_salt (s : State) : (s.rejectCommand).salt = s.salt := rfl
@[simp] theorem State.rejectCommand_tag (s : State) : (s.rejectCommand).tag = s.tag := rfl
@[simp] theorem State.rejectCommand_blockIn (s : State) : (s.rejectCommand).blockIn = s.blockIn := rfl
@[simp] theorem State.rejectCommand_blockOut (s : State) : (s.rejectCommand).blockOut = s.blockOut := rfl
@[simp] theorem State.rejectCommand_dkCk (s : State) : (s.rejectCommand).dkCk = s.dkCk := rfl
@[simp] theorem State.rejectCommand_dkAk (s : State) : (s.rejectCommand).dkAk = s.dkAk := rfl
@[simp] theorem State.rejectCommand_dkIv (s : State) : (s.rejectCommand).dkIv = s.dkIv := rfl
@[simp] theorem State.rejectCommand_din (s : State) : (s.rejectCommand).din = s.din := rfl
@[simp] theorem State.rejectCommand_dout (s : State) : (s.rejectCommand).dout = s.dout := rfl
@[simp] theorem State.rejectCommand_rk (s : State) : (s.rejectCommand).rk = s.rk := rfl
@[simp] theorem State.rejectCommand_nr (s : State) : (s.rejectCommand).nr = s.nr := rfl
@[simp] theorem State.rejectCommand_turns (s : State) : (s.rejectCommand).turns = s.turns := rfl
@[simp] theorem State.rejectCommand_reply (s : State) : (s.rejectCommand).reply = s.reply := rfl
@[simp] theorem State.rejectCommand_draws (s : State) : (s.rejectCommand).draws = s.draws := rfl
@[simp] theorem State.rejectCommand_epoch (s : State) : (s.rejectCommand).epoch = s.epoch := rfl

/-! ## `State.clearSchedule` (R566) -/

@[simp] theorem State.clearSchedule_params (s : State) : (s.clearSchedule).params = s.params := rfl
@[simp] theorem State.clearSchedule_seq (s : State) : (s.clearSchedule).seq = s.seq := rfl
@[simp] theorem State.clearSchedule_done (s : State) : (s.clearSchedule).done = s.done := rfl
@[simp] theorem State.clearSchedule_ksValid (s : State) : (s.clearSchedule).ksValid = false := rfl
@[simp] theorem State.clearSchedule_bwerr (s : State) : (s.clearSchedule).bwerr = s.bwerr := rfl
@[simp] theorem State.clearSchedule_errCode (s : State) : (s.clearSchedule).errCode = s.errCode := rfl
@[simp] theorem State.clearSchedule_errDetail (s : State) : (s.clearSchedule).errDetail = s.errDetail := rfl
@[simp] theorem State.clearSchedule_doneIe (s : State) : (s.clearSchedule).doneIe = s.doneIe := rfl
@[simp] theorem State.clearSchedule_bwerrIe (s : State) : (s.clearSchedule).bwerrIe = s.bwerrIe := rfl
@[simp] theorem State.clearSchedule_keyLen (s : State) : (s.clearSchedule).keyLen = s.keyLen := rfl
@[simp] theorem State.clearSchedule_msgLen (s : State) : (s.clearSchedule).msgLen = s.msgLen := rfl
@[simp] theorem State.clearSchedule_iter (s : State) : (s.clearSchedule).iter = s.iter := rfl
@[simp] theorem State.clearSchedule_outLen (s : State) : (s.clearSchedule).outLen = s.outLen := rfl
@[simp] theorem State.clearSchedule_key (s : State) : (s.clearSchedule).key = s.key := rfl
@[simp] theorem State.clearSchedule_iv (s : State) : (s.clearSchedule).iv = s.iv := rfl
@[simp] theorem State.clearSchedule_salt (s : State) : (s.clearSchedule).salt = s.salt := rfl
@[simp] theorem State.clearSchedule_tag (s : State) : (s.clearSchedule).tag = s.tag := rfl
@[simp] theorem State.clearSchedule_blockIn (s : State) : (s.clearSchedule).blockIn = s.blockIn := rfl
@[simp] theorem State.clearSchedule_blockOut (s : State) : (s.clearSchedule).blockOut = s.blockOut := rfl
@[simp] theorem State.clearSchedule_dkCk (s : State) : (s.clearSchedule).dkCk = s.dkCk := rfl
@[simp] theorem State.clearSchedule_dkAk (s : State) : (s.clearSchedule).dkAk = s.dkAk := rfl
@[simp] theorem State.clearSchedule_dkIv (s : State) : (s.clearSchedule).dkIv = s.dkIv := rfl
@[simp] theorem State.clearSchedule_din (s : State) : (s.clearSchedule).din = s.din := rfl
@[simp] theorem State.clearSchedule_dout (s : State) : (s.clearSchedule).dout = s.dout := rfl
@[simp] theorem State.clearSchedule_rk (s : State) : (s.clearSchedule).rk = Vector.replicate 60 Word4.zero := rfl
@[simp] theorem State.clearSchedule_nr (s : State) : (s.clearSchedule).nr = 0 := rfl
@[simp] theorem State.clearSchedule_turns (s : State) : (s.clearSchedule).turns = s.turns := rfl
@[simp] theorem State.clearSchedule_reply (s : State) : (s.clearSchedule).reply = s.reply := rfl
@[simp] theorem State.clearSchedule_draws (s : State) : (s.clearSchedule).draws = s.draws := rfl
@[simp] theorem State.clearSchedule_epoch (s : State) : (s.clearSchedule).epoch = s.epoch := rfl

/-! ## `State.acknowledge` (R104) -/

@[simp] theorem State.acknowledge_params (v : Word) (s : State) : (s.acknowledge v).params = s.params := rfl
@[simp] theorem State.acknowledge_seq (v : Word) (s : State) : (s.acknowledge v).seq = s.seq := rfl
@[simp] theorem State.acknowledge_done (v : Word) (s : State) : (s.acknowledge v).done = (s.done && !v.getLsbD 1) := rfl
@[simp] theorem State.acknowledge_ksValid (v : Word) (s : State) : (s.acknowledge v).ksValid = s.ksValid := rfl
@[simp] theorem State.acknowledge_bwerr (v : Word) (s : State) : (s.acknowledge v).bwerr = (s.bwerr && !v.getLsbD 3) := rfl
@[simp] theorem State.acknowledge_errCode (v : Word) (s : State) : (s.acknowledge v).errCode = s.errCode := rfl
@[simp] theorem State.acknowledge_errDetail (v : Word) (s : State) : (s.acknowledge v).errDetail = s.errDetail := rfl
@[simp] theorem State.acknowledge_doneIe (v : Word) (s : State) : (s.acknowledge v).doneIe = s.doneIe := rfl
@[simp] theorem State.acknowledge_bwerrIe (v : Word) (s : State) : (s.acknowledge v).bwerrIe = s.bwerrIe := rfl
@[simp] theorem State.acknowledge_keyLen (v : Word) (s : State) : (s.acknowledge v).keyLen = s.keyLen := rfl
@[simp] theorem State.acknowledge_msgLen (v : Word) (s : State) : (s.acknowledge v).msgLen = s.msgLen := rfl
@[simp] theorem State.acknowledge_iter (v : Word) (s : State) : (s.acknowledge v).iter = s.iter := rfl
@[simp] theorem State.acknowledge_outLen (v : Word) (s : State) : (s.acknowledge v).outLen = s.outLen := rfl
@[simp] theorem State.acknowledge_key (v : Word) (s : State) : (s.acknowledge v).key = s.key := rfl
@[simp] theorem State.acknowledge_iv (v : Word) (s : State) : (s.acknowledge v).iv = s.iv := rfl
@[simp] theorem State.acknowledge_salt (v : Word) (s : State) : (s.acknowledge v).salt = s.salt := rfl
@[simp] theorem State.acknowledge_tag (v : Word) (s : State) : (s.acknowledge v).tag = s.tag := rfl
@[simp] theorem State.acknowledge_blockIn (v : Word) (s : State) : (s.acknowledge v).blockIn = s.blockIn := rfl
@[simp] theorem State.acknowledge_blockOut (v : Word) (s : State) : (s.acknowledge v).blockOut = s.blockOut := rfl
@[simp] theorem State.acknowledge_dkCk (v : Word) (s : State) : (s.acknowledge v).dkCk = s.dkCk := rfl
@[simp] theorem State.acknowledge_dkAk (v : Word) (s : State) : (s.acknowledge v).dkAk = s.dkAk := rfl
@[simp] theorem State.acknowledge_dkIv (v : Word) (s : State) : (s.acknowledge v).dkIv = s.dkIv := rfl
@[simp] theorem State.acknowledge_din (v : Word) (s : State) : (s.acknowledge v).din = s.din := rfl
@[simp] theorem State.acknowledge_dout (v : Word) (s : State) : (s.acknowledge v).dout = s.dout := rfl
@[simp] theorem State.acknowledge_rk (v : Word) (s : State) : (s.acknowledge v).rk = s.rk := rfl
@[simp] theorem State.acknowledge_nr (v : Word) (s : State) : (s.acknowledge v).nr = s.nr := rfl
@[simp] theorem State.acknowledge_turns (v : Word) (s : State) : (s.acknowledge v).turns = s.turns := rfl
@[simp] theorem State.acknowledge_reply (v : Word) (s : State) : (s.acknowledge v).reply = s.reply := rfl
@[simp] theorem State.acknowledge_draws (v : Word) (s : State) : (s.acknowledge v).draws = s.draws := rfl
@[simp] theorem State.acknowledge_epoch (v : Word) (s : State) : (s.acknowledge v).epoch = s.epoch := rfl

/-! ## `State.setIe` (R111) -/

@[simp] theorem State.setIe_params (v : Word) (s : State) : (s.setIe v).params = s.params := rfl
@[simp] theorem State.setIe_seq (v : Word) (s : State) : (s.setIe v).seq = s.seq := rfl
@[simp] theorem State.setIe_done (v : Word) (s : State) : (s.setIe v).done = s.done := rfl
@[simp] theorem State.setIe_ksValid (v : Word) (s : State) : (s.setIe v).ksValid = s.ksValid := rfl
@[simp] theorem State.setIe_bwerr (v : Word) (s : State) : (s.setIe v).bwerr = s.bwerr := rfl
@[simp] theorem State.setIe_errCode (v : Word) (s : State) : (s.setIe v).errCode = s.errCode := rfl
@[simp] theorem State.setIe_errDetail (v : Word) (s : State) : (s.setIe v).errDetail = s.errDetail := rfl
@[simp] theorem State.setIe_doneIe (v : Word) (s : State) : (s.setIe v).doneIe = v.getLsbD 0 := rfl
@[simp] theorem State.setIe_bwerrIe (v : Word) (s : State) : (s.setIe v).bwerrIe = v.getLsbD 1 := rfl
@[simp] theorem State.setIe_keyLen (v : Word) (s : State) : (s.setIe v).keyLen = s.keyLen := rfl
@[simp] theorem State.setIe_msgLen (v : Word) (s : State) : (s.setIe v).msgLen = s.msgLen := rfl
@[simp] theorem State.setIe_iter (v : Word) (s : State) : (s.setIe v).iter = s.iter := rfl
@[simp] theorem State.setIe_outLen (v : Word) (s : State) : (s.setIe v).outLen = s.outLen := rfl
@[simp] theorem State.setIe_key (v : Word) (s : State) : (s.setIe v).key = s.key := rfl
@[simp] theorem State.setIe_iv (v : Word) (s : State) : (s.setIe v).iv = s.iv := rfl
@[simp] theorem State.setIe_salt (v : Word) (s : State) : (s.setIe v).salt = s.salt := rfl
@[simp] theorem State.setIe_tag (v : Word) (s : State) : (s.setIe v).tag = s.tag := rfl
@[simp] theorem State.setIe_blockIn (v : Word) (s : State) : (s.setIe v).blockIn = s.blockIn := rfl
@[simp] theorem State.setIe_blockOut (v : Word) (s : State) : (s.setIe v).blockOut = s.blockOut := rfl
@[simp] theorem State.setIe_dkCk (v : Word) (s : State) : (s.setIe v).dkCk = s.dkCk := rfl
@[simp] theorem State.setIe_dkAk (v : Word) (s : State) : (s.setIe v).dkAk = s.dkAk := rfl
@[simp] theorem State.setIe_dkIv (v : Word) (s : State) : (s.setIe v).dkIv = s.dkIv := rfl
@[simp] theorem State.setIe_din (v : Word) (s : State) : (s.setIe v).din = s.din := rfl
@[simp] theorem State.setIe_dout (v : Word) (s : State) : (s.setIe v).dout = s.dout := rfl
@[simp] theorem State.setIe_rk (v : Word) (s : State) : (s.setIe v).rk = s.rk := rfl
@[simp] theorem State.setIe_nr (v : Word) (s : State) : (s.setIe v).nr = s.nr := rfl
@[simp] theorem State.setIe_turns (v : Word) (s : State) : (s.setIe v).turns = s.turns := rfl
@[simp] theorem State.setIe_reply (v : Word) (s : State) : (s.setIe v).reply = s.reply := rfl
@[simp] theorem State.setIe_draws (v : Word) (s : State) : (s.setIe v).draws = s.draws := rfl
@[simp] theorem State.setIe_epoch (v : Word) (s : State) : (s.setIe v).epoch = s.epoch := rfl

/-! ## `State.writeOutput` (R115, R125) -/

@[simp] theorem State.writeOutput_params (bs : List Byte) (s : State) : (s.writeOutput bs).params = s.params := rfl
@[simp] theorem State.writeOutput_seq (bs : List Byte) (s : State) : (s.writeOutput bs).seq = s.seq := rfl
@[simp] theorem State.writeOutput_done (bs : List Byte) (s : State) : (s.writeOutput bs).done = s.done := rfl
@[simp] theorem State.writeOutput_ksValid (bs : List Byte) (s : State) : (s.writeOutput bs).ksValid = s.ksValid := rfl
@[simp] theorem State.writeOutput_bwerr (bs : List Byte) (s : State) : (s.writeOutput bs).bwerr = s.bwerr := rfl
@[simp] theorem State.writeOutput_errCode (bs : List Byte) (s : State) : (s.writeOutput bs).errCode = s.errCode := rfl
@[simp] theorem State.writeOutput_errDetail (bs : List Byte) (s : State) : (s.writeOutput bs).errDetail = s.errDetail := rfl
@[simp] theorem State.writeOutput_doneIe (bs : List Byte) (s : State) : (s.writeOutput bs).doneIe = s.doneIe := rfl
@[simp] theorem State.writeOutput_bwerrIe (bs : List Byte) (s : State) : (s.writeOutput bs).bwerrIe = s.bwerrIe := rfl
@[simp] theorem State.writeOutput_keyLen (bs : List Byte) (s : State) : (s.writeOutput bs).keyLen = s.keyLen := rfl
@[simp] theorem State.writeOutput_msgLen (bs : List Byte) (s : State) : (s.writeOutput bs).msgLen = s.msgLen := rfl
@[simp] theorem State.writeOutput_iter (bs : List Byte) (s : State) : (s.writeOutput bs).iter = s.iter := rfl
@[simp] theorem State.writeOutput_outLen (bs : List Byte) (s : State) : (s.writeOutput bs).outLen = BitVec.ofNat 32 bs.length := rfl
@[simp] theorem State.writeOutput_key (bs : List Byte) (s : State) : (s.writeOutput bs).key = s.key := rfl
@[simp] theorem State.writeOutput_iv (bs : List Byte) (s : State) : (s.writeOutput bs).iv = s.iv := rfl
@[simp] theorem State.writeOutput_salt (bs : List Byte) (s : State) : (s.writeOutput bs).salt = s.salt := rfl
@[simp] theorem State.writeOutput_tag (bs : List Byte) (s : State) : (s.writeOutput bs).tag = s.tag := rfl
@[simp] theorem State.writeOutput_blockIn (bs : List Byte) (s : State) : (s.writeOutput bs).blockIn = s.blockIn := rfl
@[simp] theorem State.writeOutput_blockOut (bs : List Byte) (s : State) : (s.writeOutput bs).blockOut = s.blockOut := rfl
@[simp] theorem State.writeOutput_dkCk (bs : List Byte) (s : State) : (s.writeOutput bs).dkCk = s.dkCk := rfl
@[simp] theorem State.writeOutput_dkAk (bs : List Byte) (s : State) : (s.writeOutput bs).dkAk = s.dkAk := rfl
@[simp] theorem State.writeOutput_dkIv (bs : List Byte) (s : State) : (s.writeOutput bs).dkIv = s.dkIv := rfl
@[simp] theorem State.writeOutput_din (bs : List Byte) (s : State) : (s.writeOutput bs).din = s.din := rfl
@[simp] theorem State.writeOutput_dout (bs : List Byte) (s : State) : (s.writeOutput bs).dout = s.dout.storeFrom 0 bs := rfl
@[simp] theorem State.writeOutput_rk (bs : List Byte) (s : State) : (s.writeOutput bs).rk = s.rk := rfl
@[simp] theorem State.writeOutput_nr (bs : List Byte) (s : State) : (s.writeOutput bs).nr = s.nr := rfl
@[simp] theorem State.writeOutput_turns (bs : List Byte) (s : State) : (s.writeOutput bs).turns = s.turns := rfl
@[simp] theorem State.writeOutput_reply (bs : List Byte) (s : State) : (s.writeOutput bs).reply = s.reply := rfl
@[simp] theorem State.writeOutput_draws (bs : List Byte) (s : State) : (s.writeOutput bs).draws = s.draws := rfl
@[simp] theorem State.writeOutput_epoch (bs : List Byte) (s : State) : (s.writeOutput bs).epoch = s.epoch := rfl

/-! ## `State.withSchedule` (R425) -/

@[simp] theorem State.withSchedule_params (s : State) : (s.withSchedule).params = s.params := rfl
@[simp] theorem State.withSchedule_seq (s : State) : (s.withSchedule).seq = s.seq := rfl
@[simp] theorem State.withSchedule_done (s : State) : (s.withSchedule).done = s.done := rfl
@[simp] theorem State.withSchedule_ksValid (s : State) : (s.withSchedule).ksValid = true := rfl
@[simp] theorem State.withSchedule_bwerr (s : State) : (s.withSchedule).bwerr = s.bwerr := rfl
@[simp] theorem State.withSchedule_errCode (s : State) : (s.withSchedule).errCode = s.errCode := rfl
@[simp] theorem State.withSchedule_errDetail (s : State) : (s.withSchedule).errDetail = s.errDetail := rfl
@[simp] theorem State.withSchedule_doneIe (s : State) : (s.withSchedule).doneIe = s.doneIe := rfl
@[simp] theorem State.withSchedule_bwerrIe (s : State) : (s.withSchedule).bwerrIe = s.bwerrIe := rfl
@[simp] theorem State.withSchedule_keyLen (s : State) : (s.withSchedule).keyLen = s.keyLen := rfl
@[simp] theorem State.withSchedule_msgLen (s : State) : (s.withSchedule).msgLen = s.msgLen := rfl
@[simp] theorem State.withSchedule_iter (s : State) : (s.withSchedule).iter = s.iter := rfl
@[simp] theorem State.withSchedule_outLen (s : State) : (s.withSchedule).outLen = s.outLen := rfl
@[simp] theorem State.withSchedule_key (s : State) : (s.withSchedule).key = s.key := rfl
@[simp] theorem State.withSchedule_iv (s : State) : (s.withSchedule).iv = s.iv := rfl
@[simp] theorem State.withSchedule_salt (s : State) : (s.withSchedule).salt = s.salt := rfl
@[simp] theorem State.withSchedule_tag (s : State) : (s.withSchedule).tag = s.tag := rfl
@[simp] theorem State.withSchedule_blockIn (s : State) : (s.withSchedule).blockIn = s.blockIn := rfl
@[simp] theorem State.withSchedule_blockOut (s : State) : (s.withSchedule).blockOut = s.blockOut := rfl
@[simp] theorem State.withSchedule_dkCk (s : State) : (s.withSchedule).dkCk = s.dkCk := rfl
@[simp] theorem State.withSchedule_dkAk (s : State) : (s.withSchedule).dkAk = s.dkAk := rfl
@[simp] theorem State.withSchedule_dkIv (s : State) : (s.withSchedule).dkIv = s.dkIv := rfl
@[simp] theorem State.withSchedule_din (s : State) : (s.withSchedule).din = s.din := rfl
@[simp] theorem State.withSchedule_dout (s : State) : (s.withSchedule).dout = s.dout := rfl
@[simp] theorem State.withSchedule_rk (s : State) : (s.withSchedule).rk = loadSchedule (keyExpansion s.keyBytes) := rfl
@[simp] theorem State.withSchedule_nr (s : State) : (s.withSchedule).nr = BitVec.ofNat 8 (roundCount (s.keyLen.toNat / 4)) := rfl
@[simp] theorem State.withSchedule_turns (s : State) : (s.withSchedule).turns = s.turns := rfl
@[simp] theorem State.withSchedule_reply (s : State) : (s.withSchedule).reply = s.reply := rfl
@[simp] theorem State.withSchedule_draws (s : State) : (s.withSchedule).draws = s.draws := rfl
@[simp] theorem State.withSchedule_epoch (s : State) : (s.withSchedule).epoch = s.epoch := rfl

/-! ## `State.withDerivedKeys` (R520) -/

@[simp] theorem State.withDerivedKeys_params (d : DerivedKeys) (s : State) : (s.withDerivedKeys d).params = s.params := rfl
@[simp] theorem State.withDerivedKeys_seq (d : DerivedKeys) (s : State) : (s.withDerivedKeys d).seq = s.seq := rfl
@[simp] theorem State.withDerivedKeys_done (d : DerivedKeys) (s : State) : (s.withDerivedKeys d).done = s.done := rfl
@[simp] theorem State.withDerivedKeys_ksValid (d : DerivedKeys) (s : State) : (s.withDerivedKeys d).ksValid = s.ksValid := rfl
@[simp] theorem State.withDerivedKeys_bwerr (d : DerivedKeys) (s : State) : (s.withDerivedKeys d).bwerr = s.bwerr := rfl
@[simp] theorem State.withDerivedKeys_errCode (d : DerivedKeys) (s : State) : (s.withDerivedKeys d).errCode = s.errCode := rfl
@[simp] theorem State.withDerivedKeys_errDetail (d : DerivedKeys) (s : State) : (s.withDerivedKeys d).errDetail = s.errDetail := rfl
@[simp] theorem State.withDerivedKeys_doneIe (d : DerivedKeys) (s : State) : (s.withDerivedKeys d).doneIe = s.doneIe := rfl
@[simp] theorem State.withDerivedKeys_bwerrIe (d : DerivedKeys) (s : State) : (s.withDerivedKeys d).bwerrIe = s.bwerrIe := rfl
@[simp] theorem State.withDerivedKeys_keyLen (d : DerivedKeys) (s : State) : (s.withDerivedKeys d).keyLen = s.keyLen := rfl
@[simp] theorem State.withDerivedKeys_msgLen (d : DerivedKeys) (s : State) : (s.withDerivedKeys d).msgLen = s.msgLen := rfl
@[simp] theorem State.withDerivedKeys_iter (d : DerivedKeys) (s : State) : (s.withDerivedKeys d).iter = s.iter := rfl
@[simp] theorem State.withDerivedKeys_outLen (d : DerivedKeys) (s : State) : (s.withDerivedKeys d).outLen = s.outLen := rfl
@[simp] theorem State.withDerivedKeys_key (d : DerivedKeys) (s : State) : (s.withDerivedKeys d).key = s.key := rfl
@[simp] theorem State.withDerivedKeys_iv (d : DerivedKeys) (s : State) : (s.withDerivedKeys d).iv = s.iv := rfl
@[simp] theorem State.withDerivedKeys_salt (d : DerivedKeys) (s : State) : (s.withDerivedKeys d).salt = s.salt := rfl
@[simp] theorem State.withDerivedKeys_tag (d : DerivedKeys) (s : State) : (s.withDerivedKeys d).tag = s.tag := rfl
@[simp] theorem State.withDerivedKeys_blockIn (d : DerivedKeys) (s : State) : (s.withDerivedKeys d).blockIn = s.blockIn := rfl
@[simp] theorem State.withDerivedKeys_blockOut (d : DerivedKeys) (s : State) : (s.withDerivedKeys d).blockOut = s.blockOut := rfl
@[simp] theorem State.withDerivedKeys_dkCk (d : DerivedKeys) (s : State) : (s.withDerivedKeys d).dkCk = d.ck := rfl
@[simp] theorem State.withDerivedKeys_dkAk (d : DerivedKeys) (s : State) : (s.withDerivedKeys d).dkAk = d.ak := rfl
@[simp] theorem State.withDerivedKeys_dkIv (d : DerivedKeys) (s : State) : (s.withDerivedKeys d).dkIv = d.iv := rfl
@[simp] theorem State.withDerivedKeys_din (d : DerivedKeys) (s : State) : (s.withDerivedKeys d).din = s.din := rfl
@[simp] theorem State.withDerivedKeys_dout (d : DerivedKeys) (s : State) : (s.withDerivedKeys d).dout = s.dout := rfl
@[simp] theorem State.withDerivedKeys_rk (d : DerivedKeys) (s : State) : (s.withDerivedKeys d).rk = s.rk := rfl
@[simp] theorem State.withDerivedKeys_nr (d : DerivedKeys) (s : State) : (s.withDerivedKeys d).nr = s.nr := rfl
@[simp] theorem State.withDerivedKeys_turns (d : DerivedKeys) (s : State) : (s.withDerivedKeys d).turns = s.turns := rfl
@[simp] theorem State.withDerivedKeys_reply (d : DerivedKeys) (s : State) : (s.withDerivedKeys d).reply = s.reply := rfl
@[simp] theorem State.withDerivedKeys_draws (d : DerivedKeys) (s : State) : (s.withDerivedKeys d).draws = s.draws := rfl
@[simp] theorem State.withDerivedKeys_epoch (d : DerivedKeys) (s : State) : (s.withDerivedKeys d).epoch = s.epoch := rfl

/-! ## `State.writeBlob` (R562) -/

@[simp] theorem State.writeBlob_params (bs : List Byte) (n : Nat) (s : State) : (s.writeBlob bs n).params = s.params := rfl
@[simp] theorem State.writeBlob_seq (bs : List Byte) (n : Nat) (s : State) : (s.writeBlob bs n).seq = s.seq := rfl
@[simp] theorem State.writeBlob_done (bs : List Byte) (n : Nat) (s : State) : (s.writeBlob bs n).done = s.done := rfl
@[simp] theorem State.writeBlob_ksValid (bs : List Byte) (n : Nat) (s : State) : (s.writeBlob bs n).ksValid = s.ksValid := rfl
@[simp] theorem State.writeBlob_bwerr (bs : List Byte) (n : Nat) (s : State) : (s.writeBlob bs n).bwerr = s.bwerr := rfl
@[simp] theorem State.writeBlob_errCode (bs : List Byte) (n : Nat) (s : State) : (s.writeBlob bs n).errCode = s.errCode := rfl
@[simp] theorem State.writeBlob_errDetail (bs : List Byte) (n : Nat) (s : State) : (s.writeBlob bs n).errDetail = s.errDetail := rfl
@[simp] theorem State.writeBlob_doneIe (bs : List Byte) (n : Nat) (s : State) : (s.writeBlob bs n).doneIe = s.doneIe := rfl
@[simp] theorem State.writeBlob_bwerrIe (bs : List Byte) (n : Nat) (s : State) : (s.writeBlob bs n).bwerrIe = s.bwerrIe := rfl
@[simp] theorem State.writeBlob_keyLen (bs : List Byte) (n : Nat) (s : State) : (s.writeBlob bs n).keyLen = s.keyLen := rfl
@[simp] theorem State.writeBlob_msgLen (bs : List Byte) (n : Nat) (s : State) : (s.writeBlob bs n).msgLen = s.msgLen := rfl
@[simp] theorem State.writeBlob_iter (bs : List Byte) (n : Nat) (s : State) : (s.writeBlob bs n).iter = s.iter := rfl
@[simp] theorem State.writeBlob_outLen (bs : List Byte) (n : Nat) (s : State) : (s.writeBlob bs n).outLen = BitVec.ofNat 32 bs.length := rfl
@[simp] theorem State.writeBlob_key (bs : List Byte) (n : Nat) (s : State) : (s.writeBlob bs n).key = s.key := rfl
@[simp] theorem State.writeBlob_iv (bs : List Byte) (n : Nat) (s : State) : (s.writeBlob bs n).iv = s.iv := rfl
@[simp] theorem State.writeBlob_salt (bs : List Byte) (n : Nat) (s : State) : (s.writeBlob bs n).salt = s.salt := rfl
@[simp] theorem State.writeBlob_tag (bs : List Byte) (n : Nat) (s : State) : (s.writeBlob bs n).tag = s.tag := rfl
@[simp] theorem State.writeBlob_blockIn (bs : List Byte) (n : Nat) (s : State) : (s.writeBlob bs n).blockIn = s.blockIn := rfl
@[simp] theorem State.writeBlob_blockOut (bs : List Byte) (n : Nat) (s : State) : (s.writeBlob bs n).blockOut = s.blockOut := rfl
@[simp] theorem State.writeBlob_dkCk (bs : List Byte) (n : Nat) (s : State) : (s.writeBlob bs n).dkCk = s.dkCk := rfl
@[simp] theorem State.writeBlob_dkAk (bs : List Byte) (n : Nat) (s : State) : (s.writeBlob bs n).dkAk = s.dkAk := rfl
@[simp] theorem State.writeBlob_dkIv (bs : List Byte) (n : Nat) (s : State) : (s.writeBlob bs n).dkIv = s.dkIv := rfl
@[simp] theorem State.writeBlob_din (bs : List Byte) (n : Nat) (s : State) : (s.writeBlob bs n).din = s.din := rfl
@[simp] theorem State.writeBlob_dout (bs : List Byte) (n : Nat) (s : State) : (s.writeBlob bs n).dout = s.dout.storeFrom 0 bs := rfl
@[simp] theorem State.writeBlob_rk (bs : List Byte) (n : Nat) (s : State) : (s.writeBlob bs n).rk = s.rk := rfl
@[simp] theorem State.writeBlob_nr (bs : List Byte) (n : Nat) (s : State) : (s.writeBlob bs n).nr = s.nr := rfl
@[simp] theorem State.writeBlob_turns (bs : List Byte) (n : Nat) (s : State) : (s.writeBlob bs n).turns = s.turns := rfl
@[simp] theorem State.writeBlob_reply (bs : List Byte) (n : Nat) (s : State) : (s.writeBlob bs n).reply = s.reply := rfl
@[simp] theorem State.writeBlob_draws (bs : List Byte) (n : Nat) (s : State) : (s.writeBlob bs n).draws = n := rfl
@[simp] theorem State.writeBlob_epoch (bs : List Byte) (n : Nat) (s : State) : (s.writeBlob bs n).epoch = s.epoch := rfl

/-! ## `State.writeTag` (R540) -/

@[simp] theorem State.writeTag_params (d : Digest) (s : State) : (s.writeTag d).params = s.params := rfl
@[simp] theorem State.writeTag_seq (d : Digest) (s : State) : (s.writeTag d).seq = s.seq := rfl
@[simp] theorem State.writeTag_done (d : Digest) (s : State) : (s.writeTag d).done = s.done := rfl
@[simp] theorem State.writeTag_ksValid (d : Digest) (s : State) : (s.writeTag d).ksValid = s.ksValid := rfl
@[simp] theorem State.writeTag_bwerr (d : Digest) (s : State) : (s.writeTag d).bwerr = s.bwerr := rfl
@[simp] theorem State.writeTag_errCode (d : Digest) (s : State) : (s.writeTag d).errCode = s.errCode := rfl
@[simp] theorem State.writeTag_errDetail (d : Digest) (s : State) : (s.writeTag d).errDetail = s.errDetail := rfl
@[simp] theorem State.writeTag_doneIe (d : Digest) (s : State) : (s.writeTag d).doneIe = s.doneIe := rfl
@[simp] theorem State.writeTag_bwerrIe (d : Digest) (s : State) : (s.writeTag d).bwerrIe = s.bwerrIe := rfl
@[simp] theorem State.writeTag_keyLen (d : Digest) (s : State) : (s.writeTag d).keyLen = s.keyLen := rfl
@[simp] theorem State.writeTag_msgLen (d : Digest) (s : State) : (s.writeTag d).msgLen = s.msgLen := rfl
@[simp] theorem State.writeTag_iter (d : Digest) (s : State) : (s.writeTag d).iter = s.iter := rfl
@[simp] theorem State.writeTag_outLen (d : Digest) (s : State) : (s.writeTag d).outLen = s.outLen := rfl
@[simp] theorem State.writeTag_key (d : Digest) (s : State) : (s.writeTag d).key = s.key := rfl
@[simp] theorem State.writeTag_iv (d : Digest) (s : State) : (s.writeTag d).iv = s.iv := rfl
@[simp] theorem State.writeTag_salt (d : Digest) (s : State) : (s.writeTag d).salt = s.salt := rfl
@[simp] theorem State.writeTag_tag (d : Digest) (s : State) : (s.writeTag d).tag = d := rfl
@[simp] theorem State.writeTag_blockIn (d : Digest) (s : State) : (s.writeTag d).blockIn = s.blockIn := rfl
@[simp] theorem State.writeTag_blockOut (d : Digest) (s : State) : (s.writeTag d).blockOut = s.blockOut := rfl
@[simp] theorem State.writeTag_dkCk (d : Digest) (s : State) : (s.writeTag d).dkCk = s.dkCk := rfl
@[simp] theorem State.writeTag_dkAk (d : Digest) (s : State) : (s.writeTag d).dkAk = s.dkAk := rfl
@[simp] theorem State.writeTag_dkIv (d : Digest) (s : State) : (s.writeTag d).dkIv = s.dkIv := rfl
@[simp] theorem State.writeTag_din (d : Digest) (s : State) : (s.writeTag d).din = s.din := rfl
@[simp] theorem State.writeTag_dout (d : Digest) (s : State) : (s.writeTag d).dout = s.dout := rfl
@[simp] theorem State.writeTag_rk (d : Digest) (s : State) : (s.writeTag d).rk = s.rk := rfl
@[simp] theorem State.writeTag_nr (d : Digest) (s : State) : (s.writeTag d).nr = s.nr := rfl
@[simp] theorem State.writeTag_turns (d : Digest) (s : State) : (s.writeTag d).turns = s.turns := rfl
@[simp] theorem State.writeTag_reply (d : Digest) (s : State) : (s.writeTag d).reply = s.reply := rfl
@[simp] theorem State.writeTag_draws (d : Digest) (s : State) : (s.writeTag d).draws = s.draws := rfl
@[simp] theorem State.writeTag_epoch (d : Digest) (s : State) : (s.writeTag d).epoch = s.epoch := rfl

/-! ## `State.writeBlockOut` (R455, R456) -/

@[simp] theorem State.writeBlockOut_params (b : Block) (s : State) : (s.writeBlockOut b).params = s.params := rfl
@[simp] theorem State.writeBlockOut_seq (b : Block) (s : State) : (s.writeBlockOut b).seq = s.seq := rfl
@[simp] theorem State.writeBlockOut_done (b : Block) (s : State) : (s.writeBlockOut b).done = s.done := rfl
@[simp] theorem State.writeBlockOut_ksValid (b : Block) (s : State) : (s.writeBlockOut b).ksValid = s.ksValid := rfl
@[simp] theorem State.writeBlockOut_bwerr (b : Block) (s : State) : (s.writeBlockOut b).bwerr = s.bwerr := rfl
@[simp] theorem State.writeBlockOut_errCode (b : Block) (s : State) : (s.writeBlockOut b).errCode = s.errCode := rfl
@[simp] theorem State.writeBlockOut_errDetail (b : Block) (s : State) : (s.writeBlockOut b).errDetail = s.errDetail := rfl
@[simp] theorem State.writeBlockOut_doneIe (b : Block) (s : State) : (s.writeBlockOut b).doneIe = s.doneIe := rfl
@[simp] theorem State.writeBlockOut_bwerrIe (b : Block) (s : State) : (s.writeBlockOut b).bwerrIe = s.bwerrIe := rfl
@[simp] theorem State.writeBlockOut_keyLen (b : Block) (s : State) : (s.writeBlockOut b).keyLen = s.keyLen := rfl
@[simp] theorem State.writeBlockOut_msgLen (b : Block) (s : State) : (s.writeBlockOut b).msgLen = s.msgLen := rfl
@[simp] theorem State.writeBlockOut_iter (b : Block) (s : State) : (s.writeBlockOut b).iter = s.iter := rfl
@[simp] theorem State.writeBlockOut_outLen (b : Block) (s : State) : (s.writeBlockOut b).outLen = s.outLen := rfl
@[simp] theorem State.writeBlockOut_key (b : Block) (s : State) : (s.writeBlockOut b).key = s.key := rfl
@[simp] theorem State.writeBlockOut_iv (b : Block) (s : State) : (s.writeBlockOut b).iv = s.iv := rfl
@[simp] theorem State.writeBlockOut_salt (b : Block) (s : State) : (s.writeBlockOut b).salt = s.salt := rfl
@[simp] theorem State.writeBlockOut_tag (b : Block) (s : State) : (s.writeBlockOut b).tag = s.tag := rfl
@[simp] theorem State.writeBlockOut_blockIn (b : Block) (s : State) : (s.writeBlockOut b).blockIn = s.blockIn := rfl
@[simp] theorem State.writeBlockOut_blockOut (b : Block) (s : State) : (s.writeBlockOut b).blockOut = b := rfl
@[simp] theorem State.writeBlockOut_dkCk (b : Block) (s : State) : (s.writeBlockOut b).dkCk = s.dkCk := rfl
@[simp] theorem State.writeBlockOut_dkAk (b : Block) (s : State) : (s.writeBlockOut b).dkAk = s.dkAk := rfl
@[simp] theorem State.writeBlockOut_dkIv (b : Block) (s : State) : (s.writeBlockOut b).dkIv = s.dkIv := rfl
@[simp] theorem State.writeBlockOut_din (b : Block) (s : State) : (s.writeBlockOut b).din = s.din := rfl
@[simp] theorem State.writeBlockOut_dout (b : Block) (s : State) : (s.writeBlockOut b).dout = s.dout := rfl
@[simp] theorem State.writeBlockOut_rk (b : Block) (s : State) : (s.writeBlockOut b).rk = s.rk := rfl
@[simp] theorem State.writeBlockOut_nr (b : Block) (s : State) : (s.writeBlockOut b).nr = s.nr := rfl
@[simp] theorem State.writeBlockOut_turns (b : Block) (s : State) : (s.writeBlockOut b).turns = s.turns := rfl
@[simp] theorem State.writeBlockOut_reply (b : Block) (s : State) : (s.writeBlockOut b).reply = s.reply := rfl
@[simp] theorem State.writeBlockOut_draws (b : Block) (s : State) : (s.writeBlockOut b).draws = s.draws := rfl
@[simp] theorem State.writeBlockOut_epoch (b : Block) (s : State) : (s.writeBlockOut b).epoch = s.epoch := rfl

/-! ## `State.applyReset` (R700) -/

@[simp] theorem State.applyReset_params (s : State) : s.applyReset.params = s.params := rfl
@[simp] theorem State.applyReset_seq (s : State) : s.applyReset.seq = State.reset.seq := rfl
@[simp] theorem State.applyReset_done (s : State) : s.applyReset.done = State.reset.done := rfl
@[simp] theorem State.applyReset_ksValid (s : State) : s.applyReset.ksValid = State.reset.ksValid := rfl
@[simp] theorem State.applyReset_bwerr (s : State) : s.applyReset.bwerr = State.reset.bwerr := rfl
@[simp] theorem State.applyReset_errCode (s : State) : s.applyReset.errCode = State.reset.errCode := rfl
@[simp] theorem State.applyReset_errDetail (s : State) : s.applyReset.errDetail = State.reset.errDetail := rfl
@[simp] theorem State.applyReset_doneIe (s : State) : s.applyReset.doneIe = State.reset.doneIe := rfl
@[simp] theorem State.applyReset_bwerrIe (s : State) : s.applyReset.bwerrIe = State.reset.bwerrIe := rfl
@[simp] theorem State.applyReset_keyLen (s : State) : s.applyReset.keyLen = State.reset.keyLen := rfl
@[simp] theorem State.applyReset_msgLen (s : State) : s.applyReset.msgLen = State.reset.msgLen := rfl
@[simp] theorem State.applyReset_iter (s : State) : s.applyReset.iter = State.reset.iter := rfl
@[simp] theorem State.applyReset_outLen (s : State) : s.applyReset.outLen = State.reset.outLen := rfl
@[simp] theorem State.applyReset_key (s : State) : s.applyReset.key = State.reset.key := rfl
@[simp] theorem State.applyReset_iv (s : State) : s.applyReset.iv = State.reset.iv := rfl
@[simp] theorem State.applyReset_salt (s : State) : s.applyReset.salt = State.reset.salt := rfl
@[simp] theorem State.applyReset_tag (s : State) : s.applyReset.tag = State.reset.tag := rfl
@[simp] theorem State.applyReset_blockIn (s : State) : s.applyReset.blockIn = State.reset.blockIn := rfl
@[simp] theorem State.applyReset_blockOut (s : State) : s.applyReset.blockOut = State.reset.blockOut := rfl
@[simp] theorem State.applyReset_dkCk (s : State) : s.applyReset.dkCk = State.reset.dkCk := rfl
@[simp] theorem State.applyReset_dkAk (s : State) : s.applyReset.dkAk = State.reset.dkAk := rfl
@[simp] theorem State.applyReset_dkIv (s : State) : s.applyReset.dkIv = State.reset.dkIv := rfl
@[simp] theorem State.applyReset_din (s : State) : s.applyReset.din = State.reset.din := rfl
@[simp] theorem State.applyReset_dout (s : State) : s.applyReset.dout = State.reset.dout := rfl
@[simp] theorem State.applyReset_rk (s : State) : s.applyReset.rk = State.reset.rk := rfl
@[simp] theorem State.applyReset_nr (s : State) : s.applyReset.nr = State.reset.nr := rfl
@[simp] theorem State.applyReset_turns (s : State) : s.applyReset.turns = s.turns := rfl
@[simp] theorem State.applyReset_reply (s : State) : s.applyReset.reply = State.reset.reply := rfl
@[simp] theorem State.applyReset_draws (s : State) : s.applyReset.draws = s.draws := rfl
@[simp] theorem State.applyReset_epoch (s : State) : s.applyReset.epoch = s.epoch + 1 := rfl

end Sys2Proof.Machine

namespace Sys2Proof

/-- BASE is aligned whatever the open place of the aperture (R7). -/
theorem Config.base_aligned : Config.base % 0x40000 = 0 := by
  unfold Config.base
  generalize Config.baseSlot = n
  omega

/-- The reference parameters keep the constraints of R7. -/
theorem Params.reference_wf : Params.reference.wf = true := by
  simp only [Params.wf, Params.reference, Config.base_aligned]
  decide

end Sys2Proof
end

