-- ==== Sys2Proof/Laws/Memory.lean ====
section
/-! SUPPORT. The laws of the sparse byte memories: a read after a write, and the canonical form that every
memory operation keeps. -/

namespace Sys2Proof.Machine

@[simp] theorem Memory.lookup_nil (k : Nat) : Memory.lookup [] k = none := rfl

/-- A byte just stored reads back, and every other index reads as before. -/
theorem Memory.lookup_store (m : Memory) (k j : Nat) (v : Byte) :
    (m.store k v).lookup j = if j = k then some v else m.lookup j := by
  induction m with
  | nil =>
    simp only [Memory.store, Memory.lookup]
    by_cases h : k = j <;> simp [h, eq_comm]
  | cons c rest ih =>
    obtain ⟨a, b⟩ := c
    simp only [Memory.store]
    split
    · simp only [Memory.lookup]
      by_cases h : k = j <;> simp [h, eq_comm]
    · split
      · rename_i h
        subst h
        simp only [Memory.lookup]
        by_cases h : k = j <;> simp [h, eq_comm]
      · rename_i h
        simp only [Memory.lookup, ih]
        by_cases h1 : a = j
        · simp [h1, show j ≠ k from fun e => h (by omega)]
        · simp [h1]

/-- Inside a stored string the string's bytes read back, and outside it every index reads as before. -/
theorem Memory.lookup_storeFrom (m : Memory) (k j : Nat) (bs : List Byte) :
    (m.storeFrom k bs).lookup j = if k ≤ j ∧ j < k + bs.length then bs[j - k]? else m.lookup j := by
  induction bs generalizing m k with
  | nil => simp only [Memory.storeFrom, List.length_nil]; rw [if_neg (by omega)]
  | cons b bs ih =>
    simp only [Memory.storeFrom, ih, Memory.lookup_store, List.length_cons]
    by_cases h : j = k
    · subst h
      rw [if_neg (by omega), if_pos rfl, if_pos (by omega)]
      simp
    · rw [if_neg h]
      by_cases h1 : k + 1 ≤ j ∧ j < k + 1 + bs.length
      · rw [if_pos h1, if_pos (by omega), show j - k = (j - (k + 1)) + 1 by omega, List.getElem?_cons_succ]
      · rw [if_neg h1, if_neg (by omega)]

/-- The canonical form, as a property of the list of indexes. -/
theorem Memory.wf_iff (m : Memory) : m.wf = true ↔ m.Pairwise (fun c d => c.1 < d.1) := by
  induction m with
  | nil => simp [Memory.wf]
  | cons c rest ih =>
    cases rest with
    | nil => simp [Memory.wf]
    | cons d rest =>
      obtain ⟨a, x⟩ := c
      obtain ⟨b, y⟩ := d
      simp only [Memory.wf, Bool.and_eq_true, decide_eq_true_eq, ih]
      constructor
      · rintro ⟨h, hp⟩
        refine List.pairwise_cons.2 ⟨?_, hp⟩
        intro e he
        rcases List.mem_cons.1 he with rfl | he
        · exact h
        · exact h.trans (List.rel_of_pairwise_cons hp he)
      · intro hp
        exact ⟨List.rel_of_pairwise_cons hp (List.mem_cons_self ..), (List.pairwise_cons.1 hp).2⟩

/-- What a store lists is what was listed, and the cell stored. -/
theorem Memory.mem_store {m : Memory} {k : Nat} {v : Byte} {c : Host.Cell} (h : c ∈ m.store k v) :
    c = (k, v) ∨ c ∈ m := by
  induction m with
  | nil => exact .inl (by simpa [Memory.store] using h)
  | cons d rest ih =>
    obtain ⟨a, b⟩ := d
    simp only [Memory.store] at h
    split at h
    · simpa using h
    · split at h
      · rcases List.mem_cons.1 h with h | h
        · exact .inl h
        · exact .inr (List.mem_cons_of_mem _ h)
      · rcases List.mem_cons.1 h with h | h
        · exact .inr (by simp [h])
        · exact (ih h).imp id (List.mem_cons_of_mem _)

/-- A store keeps the canonical form. -/
theorem Memory.store_wf {m : Memory} (h : m.wf = true) (k : Nat) (v : Byte) : (m.store k v).wf = true := by
  rw [Memory.wf_iff] at h ⊢
  induction m with
  | nil => simp [Memory.store]
  | cons d rest ih =>
    obtain ⟨a, b⟩ := d
    obtain ⟨hd, hr⟩ := List.pairwise_cons.1 h
    simp only [Memory.store]
    split
    · rename_i hk
      refine List.pairwise_cons.2 ⟨?_, h⟩
      intro c hc
      rcases List.mem_cons.1 hc with rfl | hc
      · exact hk
      · exact hk.trans (hd c hc)
    · split
      · rename_i hk
        subst hk
        exact List.pairwise_cons.2 ⟨fun c hc => hd c hc, hr⟩
      · refine List.pairwise_cons.2 ⟨?_, ih hr⟩
        intro c hc
        rcases Memory.mem_store hc with rfl | hc
        · simp only; omega
        · exact hd c hc

/-- Storing a string keeps the canonical form. -/
theorem Memory.storeFrom_wf {m : Memory} (h : m.wf = true) (k : Nat) (bs : List Byte) :
    (m.storeFrom k bs).wf = true := by
  induction bs generalizing m k with
  | nil => exact h
  | cons b bs ih => exact ih (Memory.store_wf h k b) (k + 1)

/-- What storing a string lists is what was listed, or lies inside the string's place. -/
theorem Memory.mem_storeFrom {m : Memory} {k : Nat} {bs : List Byte} {c : Host.Cell}
    (h : c ∈ m.storeFrom k bs) : c ∈ m ∨ (k ≤ c.1 ∧ c.1 < k + bs.length) := by
  induction bs generalizing m k with
  | nil => exact .inl h
  | cons b bs ih =>
    simp only [List.length_cons]
    rcases ih h with h | h
    · rcases Memory.mem_store h with rfl | h
      · exact .inr (by simp)
      · exact .inl h
    · exact .inr (by omega)

/-- `State.reset`'s memories have the canonical form. -/
theorem State.reset_memories_wf : State.reset.din.wf = true ∧ State.reset.dout.wf = true := by decide

/-- A byte of DOUT after a command's output: the output's below its length, as before from there on. -/
theorem State.doutByte_writeOutput (s : State) (bs : List Byte) (k : Nat) :
    (s.writeOutput bs).doutByte k = if k < bs.length then bs.getD k 0 else s.doutByte k := by
  simp only [State.doutByte, State.writeOutput_dout, State.writeOutput_epoch, Memory.lookup_storeFrom]
  by_cases h : k < bs.length
  · rw [if_pos (by omega), if_pos h]
    simp [h, List.getD]
  · rw [if_neg (by omega), if_neg h]

end Sys2Proof.Machine
end

