-- ==== Sys2Proof/Laws/Bus.lean ====
section
/-! SUPPORT. The host bus: what a turn and a reply do to the rest of the machine (nothing), and what a write to
a window leaves alone. -/

namespace Sys2Proof.Machine

/-- The state with other pending turns and another reply: the two fields an access neither reads nor writes. -/
def State.turned (rest : List Turn) (r : Option Reply) (s : State) : State := { s with turns := rest, reply := r }

/-- The decoding of an access address does not depend on the turns, and neither does the data read. -/
theorem State.readWord_turned (rest : List Turn) (r : Option Reply) (s : State) (off : Nat) :
    (s.turned rest r).readWord off = s.readWord off := rfl

/-- A byte written into a window, and the turns, do not meet. -/
theorem State.setWindowByte_turned (rest : List Turn) (r : Option Reply) (w : Window) (k : Nat) (b : Byte)
    (s : State) : (s.turned rest r).setWindowByte w k b = (s.setWindowByte w k b).turned rest r := by
  cases w with
  | din => by_cases h : k < s.params.dinBytes <;> simp [State.setWindowByte, State.turned, h]
  | dout => by_cases h : k < s.params.doutBytes <;> simp [State.setWindowByte, State.turned, h]
  | _ => rfl

/-- A word written into a window, and the turns, do not meet. -/
theorem State.setWindowWord_turned (rest : List Turn) (r : Option Reply) (w : Window) (k : Nat) (v : Word)
    (s : State) : (s.turned rest r).setWindowWord w k v = (s.setWindowWord w k v).turned rest r := by
  simp only [State.setWindowWord, State.setWindowByte_turned]

/-- The issue of a command, and the turns, do not meet. -/
theorem State.issue_turned (rest : List Turn) (r : Option Reply) (v : Word) (s : State) :
    (s.turned rest r).issue v = (s.issue v).turned rest r := by
  unfold State.issue
  cases decodeWord v <;> rfl

/-- A host write, idle or busy, and the turns, do not meet. -/
theorem State.writeWord_turned (rest : List Turn) (r : Option Reply) (off : Nat) (v : Word) (s : State) :
    (s.turned rest r).writeWord off v = (s.writeWord off v).turned rest r := by
  have hseq : (s.turned rest r).seq = s.seq := rfl
  have hpar : (s.turned rest r).params = s.params := rfl
  unfold State.writeWord
  rw [hseq, hpar]
  cases s.seq with
  | idle =>
    dsimp only
    rcases targetAt s.params off with q | ⟨w, k⟩ | _
    · cases q <;> first | rfl | exact State.issue_turned rest r v s
    · simp only [State.writeIdle]
      split
      · exact State.setWindowWord_turned rest r w k v s
      · rfl
    · rfl
  | busy c =>
    dsimp only
    rcases targetAt s.params off with q | ⟨w, k⟩ | _
    · cases q <;> rfl
    · rfl
    · rfl

/-- What a host turn does, said once: refused outside the aperture, ERROR without an effect, or performed. -/
theorem step_host {s : State} {rest : List Turn} {a : Access} : s.turns = .host a :: rest →
    step s =
      (if a.inAperture s.params = false then .refused .outsideAperture
      else if a.performed s.params = false then .next (s.turned rest (some a.errorReply))
      else
        match a with
        | .read addr _ => .next (s.turned rest (some (.read .okay (s.readWord (addr - s.params.base)))))
        | .write addr _ v =>
          .next ((s.writeWord (addr - s.params.base) v).turned rest (some (.write .okay)))) := by
  intro h
  have hw (off : Nat) (v : Word) :
      { ({ s with turns := rest, reply := none } : State).writeWord off v with reply := some (.write .okay) } =
        (s.writeWord off v).turned rest (some (.write .okay)) := by
    have := State.writeWord_turned rest none off v s
    simp only [State.turned] at this ⊢
    rw [this]
  simp only [step, turnStep, h, hostAccess]
  cases a.inAperture s.params
  · rfl
  cases a.performed s.params
  · rfl
  cases a with
  | read addr n => rfl
  | write addr n v => exact congrArg Host.Outcome.next (hw _ v)

/-- What a sequencer turn does while BUSY with a word that decodes to `i`. -/
theorem sequencerStep_busy {s : State} {w : Word} {i : Instr} (hs : s.seq = .busy w) (hi : decodeWord w = .ok i) :
    sequencerStep s = exec i s := by
  simp only [sequencerStep, hs, hi]

/-- What a sequencer turn does while IDLE. -/
theorem sequencerStep_idle {s : State} (hs : s.seq = .idle) : sequencerStep s = .next s := by
  simp only [sequencerStep, hs]

/-! ## A write to a window: one lemma for each field that is no window -/

@[simp] theorem State.setWindowByte_params (w : Window) (k : Nat) (b : Byte) (s : State) :
    (s.setWindowByte w k b).params = s.params := by
  cases w <;> first | rfl | (simp only [State.setWindowByte]; split <;> rfl)

@[simp] theorem State.setWindowByte_seq (w : Window) (k : Nat) (b : Byte) (s : State) :
    (s.setWindowByte w k b).seq = s.seq := by
  cases w <;> first | rfl | (simp only [State.setWindowByte]; split <;> rfl)

@[simp] theorem State.setWindowByte_done (w : Window) (k : Nat) (b : Byte) (s : State) :
    (s.setWindowByte w k b).done = s.done := by
  cases w <;> first | rfl | (simp only [State.setWindowByte]; split <;> rfl)

@[simp] theorem State.setWindowByte_ksValid (w : Window) (k : Nat) (b : Byte) (s : State) :
    (s.setWindowByte w k b).ksValid = s.ksValid := by
  cases w <;> first | rfl | (simp only [State.setWindowByte]; split <;> rfl)

@[simp] theorem State.setWindowByte_bwerr (w : Window) (k : Nat) (b : Byte) (s : State) :
    (s.setWindowByte w k b).bwerr = s.bwerr := by
  cases w <;> first | rfl | (simp only [State.setWindowByte]; split <;> rfl)

@[simp] theorem State.setWindowByte_errCode (w : Window) (k : Nat) (b : Byte) (s : State) :
    (s.setWindowByte w k b).errCode = s.errCode := by
  cases w <;> first | rfl | (simp only [State.setWindowByte]; split <;> rfl)

@[simp] theorem State.setWindowByte_errDetail (w : Window) (k : Nat) (b : Byte) (s : State) :
    (s.setWindowByte w k b).errDetail = s.errDetail := by
  cases w <;> first | rfl | (simp only [State.setWindowByte]; split <;> rfl)

@[simp] theorem State.setWindowByte_doneIe (w : Window) (k : Nat) (b : Byte) (s : State) :
    (s.setWindowByte w k b).doneIe = s.doneIe := by
  cases w <;> first | rfl | (simp only [State.setWindowByte]; split <;> rfl)

@[simp] theorem State.setWindowByte_bwerrIe (w : Window) (k : Nat) (b : Byte) (s : State) :
    (s.setWindowByte w k b).bwerrIe = s.bwerrIe := by
  cases w <;> first | rfl | (simp only [State.setWindowByte]; split <;> rfl)

@[simp] theorem State.setWindowByte_keyLen (w : Window) (k : Nat) (b : Byte) (s : State) :
    (s.setWindowByte w k b).keyLen = s.keyLen := by
  cases w <;> first | rfl | (simp only [State.setWindowByte]; split <;> rfl)

@[simp] theorem State.setWindowByte_msgLen (w : Window) (k : Nat) (b : Byte) (s : State) :
    (s.setWindowByte w k b).msgLen = s.msgLen := by
  cases w <;> first | rfl | (simp only [State.setWindowByte]; split <;> rfl)

@[simp] theorem State.setWindowByte_iter (w : Window) (k : Nat) (b : Byte) (s : State) :
    (s.setWindowByte w k b).iter = s.iter := by
  cases w <;> first | rfl | (simp only [State.setWindowByte]; split <;> rfl)

@[simp] theorem State.setWindowByte_outLen (w : Window) (k : Nat) (b : Byte) (s : State) :
    (s.setWindowByte w k b).outLen = s.outLen := by
  cases w <;> first | rfl | (simp only [State.setWindowByte]; split <;> rfl)

@[simp] theorem State.setWindowByte_rk (w : Window) (k : Nat) (b : Byte) (s : State) :
    (s.setWindowByte w k b).rk = s.rk := by
  cases w <;> first | rfl | (simp only [State.setWindowByte]; split <;> rfl)

@[simp] theorem State.setWindowByte_nr (w : Window) (k : Nat) (b : Byte) (s : State) :
    (s.setWindowByte w k b).nr = s.nr := by
  cases w <;> first | rfl | (simp only [State.setWindowByte]; split <;> rfl)

@[simp] theorem State.setWindowByte_turns (w : Window) (k : Nat) (b : Byte) (s : State) :
    (s.setWindowByte w k b).turns = s.turns := by
  cases w <;> first | rfl | (simp only [State.setWindowByte]; split <;> rfl)

@[simp] theorem State.setWindowByte_reply (w : Window) (k : Nat) (b : Byte) (s : State) :
    (s.setWindowByte w k b).reply = s.reply := by
  cases w <;> first | rfl | (simp only [State.setWindowByte]; split <;> rfl)

@[simp] theorem State.setWindowByte_draws (w : Window) (k : Nat) (b : Byte) (s : State) :
    (s.setWindowByte w k b).draws = s.draws := by
  cases w <;> first | rfl | (simp only [State.setWindowByte]; split <;> rfl)

@[simp] theorem State.setWindowByte_epoch (w : Window) (k : Nat) (b : Byte) (s : State) :
    (s.setWindowByte w k b).epoch = s.epoch := by
  cases w <;> first | rfl | (simp only [State.setWindowByte]; split <;> rfl)

@[simp] theorem State.setWindowWord_params (w : Window) (k : Nat) (v : Word) (s : State) :
    (s.setWindowWord w k v).params = s.params := by simp [State.setWindowWord]

@[simp] theorem State.setWindowWord_seq (w : Window) (k : Nat) (v : Word) (s : State) :
    (s.setWindowWord w k v).seq = s.seq := by simp [State.setWindowWord]

@[simp] theorem State.setWindowWord_done (w : Window) (k : Nat) (v : Word) (s : State) :
    (s.setWindowWord w k v).done = s.done := by simp [State.setWindowWord]

@[simp] theorem State.setWindowWord_ksValid (w : Window) (k : Nat) (v : Word) (s : State) :
    (s.setWindowWord w k v).ksValid = s.ksValid := by simp [State.setWindowWord]

@[simp] theorem State.setWindowWord_bwerr (w : Window) (k : Nat) (v : Word) (s : State) :
    (s.setWindowWord w k v).bwerr = s.bwerr := by simp [State.setWindowWord]

@[simp] theorem State.setWindowWord_errCode (w : Window) (k : Nat) (v : Word) (s : State) :
    (s.setWindowWord w k v).errCode = s.errCode := by simp [State.setWindowWord]

@[simp] theorem State.setWindowWord_errDetail (w : Window) (k : Nat) (v : Word) (s : State) :
    (s.setWindowWord w k v).errDetail = s.errDetail := by simp [State.setWindowWord]

@[simp] theorem State.setWindowWord_doneIe (w : Window) (k : Nat) (v : Word) (s : State) :
    (s.setWindowWord w k v).doneIe = s.doneIe := by simp [State.setWindowWord]

@[simp] theorem State.setWindowWord_bwerrIe (w : Window) (k : Nat) (v : Word) (s : State) :
    (s.setWindowWord w k v).bwerrIe = s.bwerrIe := by simp [State.setWindowWord]

@[simp] theorem State.setWindowWord_keyLen (w : Window) (k : Nat) (v : Word) (s : State) :
    (s.setWindowWord w k v).keyLen = s.keyLen := by simp [State.setWindowWord]

@[simp] theorem State.setWindowWord_msgLen (w : Window) (k : Nat) (v : Word) (s : State) :
    (s.setWindowWord w k v).msgLen = s.msgLen := by simp [State.setWindowWord]

@[simp] theorem State.setWindowWord_iter (w : Window) (k : Nat) (v : Word) (s : State) :
    (s.setWindowWord w k v).iter = s.iter := by simp [State.setWindowWord]

@[simp] theorem State.setWindowWord_outLen (w : Window) (k : Nat) (v : Word) (s : State) :
    (s.setWindowWord w k v).outLen = s.outLen := by simp [State.setWindowWord]

@[simp] theorem State.setWindowWord_rk (w : Window) (k : Nat) (v : Word) (s : State) :
    (s.setWindowWord w k v).rk = s.rk := by simp [State.setWindowWord]

@[simp] theorem State.setWindowWord_nr (w : Window) (k : Nat) (v : Word) (s : State) :
    (s.setWindowWord w k v).nr = s.nr := by simp [State.setWindowWord]

@[simp] theorem State.setWindowWord_turns (w : Window) (k : Nat) (v : Word) (s : State) :
    (s.setWindowWord w k v).turns = s.turns := by simp [State.setWindowWord]

@[simp] theorem State.setWindowWord_reply (w : Window) (k : Nat) (v : Word) (s : State) :
    (s.setWindowWord w k v).reply = s.reply := by simp [State.setWindowWord]

@[simp] theorem State.setWindowWord_draws (w : Window) (k : Nat) (v : Word) (s : State) :
    (s.setWindowWord w k v).draws = s.draws := by simp [State.setWindowWord]

@[simp] theorem State.setWindowWord_epoch (w : Window) (k : Nat) (v : Word) (s : State) :
    (s.setWindowWord w k v).epoch = s.epoch := by simp [State.setWindowWord]

/-- A byte of a window after one byte of a window was written: that byte where the window has it, every other
byte as before. -/
theorem State.windowByte_setWindowByte (w w' : Window) (k j : Nat) (b : Byte) (s : State) :
    (s.setWindowByte w k b).windowByte w' j =
      if w' = w ∧ j = k ∧ k < w.size s.params then b else s.windowByte w' j := by
  have vec {n : Nat} (v : Vector Byte n) :
      ((v.setIfInBounds k b)[j]?).getD 0 = if j = k ∧ k < n then b else (v[j]?).getD 0 := by
    rw [Vector.getElem?_setIfInBounds]
    by_cases h : k = j
    · subst h
      by_cases hn : k < n <;> simp [hn]
    · rw [if_neg h, if_neg (fun e => h e.1.symm)]
  cases w <;> cases w' <;>
    first
    | (rw [if_neg (by simp)]; first | rfl | (simp only [State.setWindowByte]; split_ifs <;> rfl))
    | (simp only [State.setWindowByte, State.windowByte, Window.size, true_and]; exact vec _)
    | (simp only [State.setWindowByte, State.windowByte, State.dinByte, State.doutByte, Window.size, true_and]
       split
       · rename_i h
         simp only [Memory.lookup_store, h, and_true]
         split <;> rfl
       · rename_i h
         rw [if_neg (fun e => h e.2)])

/-- A byte of a window after a bus word was written into a window at byte k: the word's four bytes where the
window has them, every other byte as before (R205). -/
theorem State.windowByte_setWindowWord (w w' : Window) (k j : Nat) (v : Word) (s : State)
    (h : k + 3 < w.size s.params) :
    (s.setWindowWord w k v).windowByte w' j =
      if w' = w ∧ k ≤ j ∧ j ≤ k + 3 then lane v (j - k) else s.windowByte w' j := by
  simp only [State.setWindowWord, State.windowByte_setWindowByte, State.setWindowByte_params]
  by_cases hw : w' = w
  · subst hw
    simp only [true_and]
    by_cases h3 : j = k + 3
    · subst h3; rw [if_pos ⟨rfl, h⟩, if_pos (by omega)]; simp
    rw [if_neg (fun e => h3 e.1)]
    by_cases h2 : j = k + 2
    · subst h2; rw [if_pos ⟨rfl, by omega⟩, if_pos (by omega)]; simp
    rw [if_neg (fun e => h2 e.1)]
    by_cases h1 : j = k + 1
    · subst h1; rw [if_pos ⟨rfl, by omega⟩, if_pos (by omega)]; simp
    rw [if_neg (fun e => h1 e.1)]
    by_cases h0 : j = k
    · subst h0; rw [if_pos ⟨rfl, by omega⟩, if_pos (by omega)]; simp
    rw [if_neg (fun e => h0 e.1), if_neg (by omega)]
  · simp [hw]

/-! ## The map (R101) -/

/-- Past the last register no offset names a register (R101). -/
theorem registerAt_eq_none {off : Nat} (h : 0x20 < off) : registerAt off = none := by
  unfold registerAt
  split <;> first | omega | rfl

/-- Whether an offset falls into a window, as inequalities. -/
theorem Window.holds_iff (p : Params) (off : Nat) (w : Window) :
    Window.holds p off w = true ↔ w.start ≤ off ∧ off < w.start + w.size p := by
  simp only [Window.holds, Bool.and_eq_true, decide_eq_true_eq]

/-- No two windows overlap. -/
theorem Window.holds_unique {p : Params} (hp : p.wf = true) {off : Nat} {w w' : Window}
    (h : Window.holds p off w = true) (h' : Window.holds p off w' = true) : w = w' := by
  have hb : 64 ≤ p.dinBytes ∧ p.dinBytes ≤ 65472 := by
    simp only [Params.wf, Bool.and_eq_true, decide_eq_true_eq] at hp
    exact ⟨hp.1.2, hp.2⟩
  rw [Window.holds_iff] at h h'
  have hd : p.doutBytes = p.dinBytes + 64 := rfl
  cases w <;> cases w' <;> first | rfl | (simp only [Window.start, Window.size, hd] at h h'; omega)

/-- An offset inside a window names that window's byte (R101). -/
theorem targetAt_window {p : Params} (hp : p.wf = true) {off : Nat} {w : Window}
    (h : Window.holds p off w = true) : targetAt p off = .window w (off - w.start) := by
  have hs : 0x20 < off := by
    have := (Window.holds_iff p off w).1 h
    have hs : 0x40 ≤ w.start := by cases w <;> simp only [Window.start] <;> omega
    omega
  have hf : windowMap.find? (Window.holds p off) = some w := by
    have hn (w' : Window) (hw : w' ≠ w) : Window.holds p off w' = false := by
      cases hq : Window.holds p off w' with
      | false => rfl
      | true => exact absurd (Window.holds_unique hp hq h) hw
    cases w <;> simp [windowMap, h, hn]
  rw [targetAt, registerAt_eq_none hs, hf]

/-- An offset past the registers and inside no window is reserved (R101). -/
theorem targetAt_reserved {p : Params} {off : Nat} (hr : registerAt off = none)
    (h : ∀ w, Window.holds p off w = false) : targetAt p off = .reserved := by
  rw [targetAt, hr, List.find?_eq_none.2 fun w _ => by simp [h w]]

/-! ## Words the host reads -/

/-- A KEY word reads 0 (R117). -/
@[simp] theorem State.readIdle_key (s : State) (k : Nat) : s.readIdle (.window .key k) = 0 := rfl

/-- The fields of INFO: NR in [7:0], 0 in [15:8], DIN_BYTES / 16 in [31:16] (R116). -/
theorem State.infoWord_fields (s : State) :
    s.infoWord.extractLsb' 0 8 = s.nr ∧ s.infoWord.extractLsb' 8 8 = 0 ∧
      s.infoWord.extractLsb' 16 16 = BitVec.ofNat 16 (s.params.dinBytes / 16) := by
  unfold State.infoWord
  refine ⟨?_, ?_, ?_⟩ <;> ext i hi <;> rw [BitVec.getElem_extractLsb'] <;>
    change BitVec.getLsbD (_ ++ _ ++ _ : BitVec (16 + 8 + 8)) _ = _ <;>
    rw [BitVec.getLsbD_append, BitVec.getLsbD_append]
  · simp [hi]
  · simp [hi, show ¬ (8 + i < 8) by omega]
  · simp [hi, show ¬ (16 + i < 8) by omega, show ¬ (16 + i - 8 < 8) by omega, show 16 + i - 8 - 8 = i by omega]

end Sys2Proof.Machine
end

