-- ==== Sys2Proof/Laws/Bytes.lean ====
section
/-! SUPPORT. Byte strings, blocks and byte lanes: lengths, elements, and that cutting into blocks and joining
them are inverse. -/

namespace Sys2Proof.Machine

/-! ## Lanes (R205) -/

/-- Lane i of a word put together from four bytes is byte i. -/
theorem lane_packLE (b0 b1 b2 b3 : Byte) :
    lane (packLE b0 b1 b2 b3) 0 = b0 ∧ lane (packLE b0 b1 b2 b3) 1 = b1 ∧
      lane (packLE b0 b1 b2 b3) 2 = b2 ∧ lane (packLE b0 b1 b2 b3) 3 = b3 := by
  refine ⟨?_, ?_, ?_, ?_⟩ <;>
  · apply BitVec.eq_of_getLsbD_eq
    intro i hi
    simp only [lane, packLE, BitVec.getLsbD_extractLsb', BitVec.getLsbD_append, hi, decide_true, Bool.true_and]
    repeat (first | rw [if_pos (by omega)] | rw [if_neg (by omega)])
    try congr 1
    try omega

/-- The number a little-endian word stands for. -/
theorem toNat_packLE (b0 b1 b2 b3 : Byte) :
    (packLE b0 b1 b2 b3).toNat =
      b0.toNat + 2 ^ 8 * b1.toNat + 2 ^ 16 * b2.toNat + 2 ^ 24 * b3.toNat := by
  have h0 := b0.isLt
  have h1 := b1.isLt
  have h2 := b2.isLt
  have h3 := b3.isLt
  simp only [packLE, BitVec.toNat_append, Nat.shiftLeft_eq]
  rw [← Nat.shiftLeft_eq, ← Nat.shiftLeft_eq, ← Nat.shiftLeft_eq, ← Nat.shiftLeft_add_eq_or_of_lt h2,
    ← Nat.shiftLeft_add_eq_or_of_lt h1, ← Nat.shiftLeft_add_eq_or_of_lt h0]
  simp only [Nat.shiftLeft_eq]
  omega

/-! ## Fixed-size values -/

/-- The elements of the first bytes of a string. -/
theorem firstBytes_getElem? (n : Nat) (l : List Byte) (k : Nat) (h : k < n) :
    (firstBytes n l)[k]? = some (l.getD k 0) := by
  simp [firstBytes, h]

/-- The bytes of a fixed-size value, as a string. -/
theorem firstBytes_toList (n : Nat) (l : List Byte) (h : n ≤ l.length) : (firstBytes n l).toList = l.take n := by
  apply List.ext_getElem?
  intro k
  rw [List.getElem?_take]
  by_cases hk : k < n
  · simp [hk, firstBytes, show k < l.length by omega, List.getD]
  · simp [hk]

/-- A fixed-size value is the first bytes of its own string. -/
theorem firstBytes_toList_self {n : Nat} (v : Vector Byte n) : firstBytes n v.toList = v := by
  apply Vector.ext
  intro i h
  simp [firstBytes, List.getD]

/-- A prefix of a fixed-size value, index by index. -/
theorem take_toList_eq_map {n : Nat} (v : Vector Byte n) (m : Nat) (h : m ≤ n) :
    v.toList.take m = (List.range m).map fun k => (v[k]?).getD 0 := by
  apply List.ext_getElem?
  intro k
  rw [List.getElem?_take]
  by_cases hk : k < m
  · simp [hk, show k < n by omega]
  · simp [hk]

/-- A fixed-size value, index by index. -/
theorem toList_eq_map {n : Nat} (v : Vector Byte n) : v.toList = (List.range n).map fun k => (v[k]?).getD 0 := by
  rw [← take_toList_eq_map v n (Nat.le_refl n), List.take_of_length_le (by simp)]

/-- Exclusive-or of two fixed-size strings, byte by byte. -/
theorem xorBytes_getElem? {n : Nat} (a b : Vector Byte n) (k : Nat) (h : k < n) :
    (xorBytes a b)[k]? = some ((a[k]?).getD 0 ^^^ (b[k]?).getD 0) := by
  simp [xorBytes, h]

/-- Exclusive-or with the same string twice changes nothing. -/
theorem xorBytes_xorBytes {n : Nat} (a b : Vector Byte n) : xorBytes (xorBytes a b) b = a := by
  apply Vector.ext
  intro i h
  simp [xorBytes]

/-! ## Blocks -/

@[simp] theorem joinBlocks_nil : joinBlocks [] = [] := rfl

theorem joinBlocks_cons (b : Block) (bs : List Block) : joinBlocks (b :: bs) = b.toList ++ joinBlocks bs := rfl

@[simp] theorem joinBlocks_length (bs : List Block) : (joinBlocks bs).length = 16 * bs.length := by
  induction bs with
  | nil => rfl
  | cons b bs ih => rw [joinBlocks_cons, List.length_append, ih, Vector.length_toList, List.length_cons]; omega

@[simp] theorem blocksOf_length (m : List Byte) : (blocksOf m).length = m.length / 16 := by simp [blocksOf]

/-- Cutting the concatenation of blocks gives the blocks. -/
theorem blocksOf_joinBlocks (bs : List Block) : blocksOf (joinBlocks bs) = bs := by
  apply List.ext_getElem?
  intro j
  have key : ∀ (bs : List Block) (j : Nat) (h : j < bs.length), blockAt (joinBlocks bs) j = bs[j] := by
    intro bs
    induction bs with
    | nil => intro j h; simp at h
    | cons b bs ih =>
      intro j h
      cases j with
      | zero =>
        apply Vector.ext
        intro k hk
        simp [blockAt, firstBytes, joinBlocks_cons, List.getD, List.getElem?_append]
      | succ j =>
        have := ih j (by simpa using h)
        rw [List.getElem_cons_succ, ← this]
        unfold blockAt
        rw [joinBlocks_cons, List.drop_append, List.drop_eq_nil_of_le (by simp), Vector.length_toList,
          show 16 * (j + 1) - 16 = 16 * j by omega]
        rfl
  by_cases h : j < bs.length
  · rw [List.getElem?_eq_getElem h, ← key bs j h]
    simp [blocksOf, h]
  · rw [List.getElem?_eq_none (by simpa using h), List.getElem?_eq_none (by simpa using h)]

/-- Byte k of the concatenation of blocks is byte k mod 16 of block k div 16. -/
theorem joinBlocks_getElem? (bs : List Block) (k : Nat) :
    (joinBlocks bs)[k]? = (bs[k / 16]?).bind fun b => b[k % 16]? := by
  induction bs generalizing k with
  | nil => simp
  | cons b bs ih =>
    rw [joinBlocks_cons, List.getElem?_append]
    by_cases h : k < 16
    · simp [h, Nat.div_eq_of_lt h, Nat.mod_eq_of_lt h]
    · obtain ⟨j, rfl⟩ : ∃ j, k = 16 + j := ⟨k - 16, by omega⟩
      rw [if_neg (by simp)]
      simp only [Vector.length_toList, Nat.add_sub_cancel_left, ih]
      rw [show (16 + j) / 16 = j / 16 + 1 by omega, Nat.add_mod_left, List.getElem?_cons_succ]

/-- Joining the blocks of a string of whole blocks gives the string. -/
theorem joinBlocks_blocksOf (m : List Byte) (h : m.length % 16 = 0) : joinBlocks (blocksOf m) = m := by
  apply List.ext_getElem?
  intro k
  rw [joinBlocks_getElem?]
  by_cases hk : k < m.length
  · have hj : k / 16 < m.length / 16 := by omega
    have hm : k % 16 < 16 := by omega
    simp only [blocksOf, List.getElem?_map, List.getElem?_range hj, Option.map_some, Option.bind_some, blockAt]
    rw [firstBytes_getElem? _ _ _ hm, List.getD, List.getElem?_drop,
      show 16 * (k / 16) + k % 16 = k by omega, List.getElem?_eq_getElem hk]
    rfl
  · rw [List.getElem?_eq_none (by omega : m.length ≤ k),
      List.getElem?_eq_none (by rw [blocksOf_length]; omega : (blocksOf m).length ≤ k / 16)]
    rfl

/-! ## Operands -/

@[simp] theorem State.message_length (s : State) : s.message.length = s.msgLen.toNat := by simp [State.message]

/-- The key is the first KEY_LEN bytes of the KEY window. -/
theorem State.keyBytes_eq_map (s : State) (h : s.keyLen.toNat ≤ 32) :
    s.keyBytes = (List.range s.keyLen.toNat).map (s.windowByte .key) :=
  take_toList_eq_map s.key _ h

/-- The key depends on KEY_LEN and on the bytes below it alone (R117). -/
theorem State.keyBytes_congr {s s' : State} (hl : s'.keyLen = s.keyLen)
    (h : ∀ k < s.keyLen.toNat, s'.windowByte .key k = s.windowByte .key k) : s'.keyBytes = s.keyBytes := by
  unfold State.keyBytes
  rw [hl]
  apply List.ext_getElem?
  intro k
  simp only [List.getElem?_take]
  split
  · rename_i hk
    have := h k hk
    simp only [State.windowByte] at this
    by_cases h32 : k < 32
    · simpa [h32] using this
    · simp [h32]
  · rfl

/-- The message depends on MSG_LEN and on the bytes below it alone (R124). -/
theorem State.message_congr {s s' : State} (hl : s'.msgLen = s.msgLen)
    (h : ∀ k < s.msgLen.toNat, s'.windowByte .din k = s.windowByte .din k) : s'.message = s.message := by
  unfold State.message
  rw [hl]
  exact List.map_congr_left fun k hk => h k (by simpa using hk)

/-- Byte k of the message is byte k of DIN. -/
theorem State.message_getD (s : State) (k : Nat) (h : k < s.msgLen.toNat) :
    s.message.getD k 0 = s.windowByte .din k := by
  simp [State.message, List.getD, h, State.windowByte]

theorem State.keyBytes_length (s : State) (h : s.keyLen.toNat ≤ 32) : s.keyBytes.length = s.keyLen.toNat := by
  rw [State.keyBytes_eq_map s h]; simp

end Sys2Proof.Machine
end

