-- ==== Sys2Proof/Laws/Chaining.lean ====
section
/-! SUPPORT. Padding, chaining and the wire blob: the lengths of what the commands write, and one lemma for each
chaining loop. -/

namespace Sys2Proof.Machine

/-- A padded message is whole blocks, one more than the message fills (R471). -/
theorem pad_length (m : List Byte) : (pad m).length = 16 * (m.length / 16 + 1) := by
  simp only [pad, List.length_append, List.length_replicate]
  omega

@[simp] theorem cbcEncBlocks_length (enc : Block → Block) (cv : Block) (ps : List Block) :
    (cbcEncBlocks enc cv ps).length = ps.length := by
  induction ps generalizing cv with
  | nil => rfl
  | cons p ps ih => simp [cbcEncBlocks, ih]

@[simp] theorem cbcDecBlocks_length (dec : Block → Block) (cv : Block) (cs : List Block) :
    (cbcDecBlocks dec cv cs).length = cs.length := by
  induction cs generalizing cv with
  | nil => rfl
  | cons x cs ih => simp [cbcDecBlocks, ih]

/-- The ciphertext's length depends on the message's alone. -/
theorem cbcEncrypt_length (rk : RoundKeys) (nr : Nat) (iv : Block) (m : List Byte) :
    (cbcEncrypt rk nr iv m).length = 16 * (m.length / 16 + 1) := by
  simp only [cbcEncrypt, joinBlocks_length, cbcEncBlocks_length, blocksOf_length, pad_length]
  omega

/-- The raw plaintext is as long as the ciphertext. -/
theorem cbcDecryptRaw_length (rk : RoundKeys) (nr : Nat) (iv : Block) (m : List Byte) (h : m.length % 16 = 0) :
    (cbcDecryptRaw rk nr iv m).length = m.length := by
  simp only [cbcDecryptRaw, joinBlocks_length, cbcDecBlocks_length, blocksOf_length]
  omega

/-- Removing padding shortens a string. -/
theorem unpad_length {m r : List Byte} (h : unpad m = some r) : r.length ≤ m.length := by
  unfold unpad at h
  split at h
  · cases h
  · dsimp only at h
    split_ifs at h
    cases h
    simp

/-- A plaintext is no longer than its ciphertext. -/
theorem cbcDecrypt_length {rk : RoundKeys} {nr : Nat} {iv : Block} {m r : List Byte} (h : m.length % 16 = 0)
    (e : cbcDecrypt rk nr iv m = some r) : r.length ≤ m.length := by
  have := unpad_length e
  rwa [cbcDecryptRaw_length _ _ _ _ h] at this

/-- The blob is the header of 48 bytes and the ciphertext (R560). -/
theorem aeBlob_length (p : List Byte) (salt : Block) (n : Nat) (m : List Byte) :
    (aeBlob p salt n m).length = 48 + 16 * (m.length / 16 + 1) := by
  simp only [aeBlob, List.length_append, Vector.length_toList, cbcEncrypt_length]

/-- The parts of a blob, in their order (R560). -/
theorem aeBlob_parts (p : List Byte) (salt : Block) (n : Nat) (m : List Byte) :
    ∃ (tag : Digest) (ct : List Byte), aeBlob p salt n m = tag.toList ++ salt.toList ++ ct ∧
      tag = hmac (deriveKeys p salt.toList n).ak.toList (salt.toList ++ ct) ∧
      ct = cbcEncrypt (loadSchedule (keyExpansion (deriveKeys p salt.toList n).ck.toList)) 10
        (deriveKeys p salt.toList n).iv m :=
  ⟨_, _, rfl, rfl, rfl⟩

/-- The fields of a string of a blob's form. -/
theorem blob_fields (tag : Digest) (salt : Block) (ct : List Byte) :
    blobTag (tag.toList ++ salt.toList ++ ct) = tag ∧ blobSalt (tag.toList ++ salt.toList ++ ct) = salt ∧
      blobCiphertext (tag.toList ++ salt.toList ++ ct) = ct := by
  refine ⟨?_, ?_, ?_⟩
  · apply Vector.ext
    intro i h
    simp [blobTag, firstBytes, List.getD, List.getElem?_append]
  · apply Vector.ext
    intro i h
    simp [blobSalt, firstBytes, List.getD, List.getElem?_append]
  · rw [blobCiphertext, show 48 = (tag.toList ++ salt.toList).length by simp, List.drop_left]

/-- An opened blob is no longer than the blob. -/
theorem aeOpen_length {p : List Byte} {n : Nat} {blob m : List Byte} (h : blob.length % 16 = 0)
    (e : aeOpen p n blob = .ok m) : m.length ≤ blob.length := by
  unfold aeOpen at e
  dsimp only at e
  split_ifs at e
  split at e
  · cases e
  · rename_i m' hd
    cases e
    have := cbcDecrypt_length (by rw [blobCiphertext, List.length_drop]; omega) hd
    rw [blobCiphertext, List.length_drop] at this
    omega

/-- Block j of a CBC ciphertext: its plaintext block combined with the block before it (R474). -/
theorem cbcEncBlocks_getElem? (enc : Block → Block) (cv : Block) (ps : List Block) (j : Nat) (p d : Block)
    (h : ps[j]? = some p) :
    (cbcEncBlocks enc cv ps)[j]? =
      some (enc (xorBytes p (if j = 0 then cv else (cbcEncBlocks enc cv ps).getD (j - 1) d))) := by
  induction ps generalizing cv j with
  | nil => simp at h
  | cons q ps ih =>
    cases j with
    | zero => simp only [List.getElem?_cons_zero, Option.some.injEq] at h; simp [cbcEncBlocks, h]
    | succ j =>
      have hj := ih (enc (xorBytes q cv)) j (by simpa using h)
      simp only [cbcEncBlocks, List.getElem?_cons_succ, hj]
      cases j with
      | zero => simp
      | succ j => simp

/-- Block j of a CBC plaintext: its own ciphertext block and the one before it, and no other (R475). -/
theorem cbcDecBlocks_getElem? (dec : Block → Block) (cv : Block) (cs : List Block) (j : Nat) :
    (cbcDecBlocks dec cv cs)[j]? =
      cs[j]?.map fun x => xorBytes (dec x) (if j = 0 then cv else cs.getD (j - 1) cv) := by
  induction cs generalizing cv j with
  | nil => simp [cbcDecBlocks]
  | cons x cs ih =>
    cases j with
    | zero => simp [cbcDecBlocks]
    | succ j =>
      simp only [cbcDecBlocks, List.getElem?_cons_succ, ih]
      cases j with
      | zero => simp [List.getD]
      | succ j =>
        by_cases hj : j < cs.length
        · simp [List.getD, hj]
        · rw [List.getElem?_eq_none (show cs.length ≤ j + 1 by omega)]
          rfl

/-- The chaining loops undo one another wherever the engines do (R476). -/
theorem cbcDecBlocks_cbcEncBlocks (enc dec : Block → Block) (h : ∀ b, dec (enc b) = b) (cv : Block)
    (ps : List Block) : cbcDecBlocks dec cv (cbcEncBlocks enc cv ps) = ps := by
  induction ps generalizing cv with
  | nil => rfl
  | cons p ps ih => simp [cbcEncBlocks, cbcDecBlocks, h, ih, xorBytes_xorBytes]

end Sys2Proof.Machine
end

