-- ==== Sys2Proof/Laws/Gf.lean ====
section
/-! SUPPORT. The laws of GF(2^8) multiplication that the cipher's proofs rest on: it is linear in each
argument; and the recurrence of the round constants. -/

namespace Sys2Proof.Machine

/-- `xtime` is linear. -/
theorem xtime_xor (a b : Byte) : xtime (a ^^^ b) = xtime a ^^^ xtime b := by
  simp only [xtime, BitVec.getLsbD_xor, BitVec.shiftLeft_xor_distrib]
  generalize a <<< 1 = x
  generalize b <<< 1 = y
  cases a.getLsbD 7 <;> cases b.getLsbD 7 <;> simp
  · ac_rfl
  · ac_rfl
  · rw [show x ^^^ 27#8 ^^^ (y ^^^ 27#8) = x ^^^ y ^^^ (27#8 ^^^ 27#8) by ac_rfl]; simp

/-- The multiplication loop is linear in its accumulator and its second factor together. -/
theorem gmulLoop_xor_right (n : Nat) (r r' a b b' : Byte) :
    gmulLoop n (r ^^^ r') a (b ^^^ b') = gmulLoop n r a b ^^^ gmulLoop n r' a b' := by
  induction n generalizing r r' a b b' with
  | zero => rfl
  | succ n ih =>
    simp only [gmulLoop, BitVec.getLsbD_xor, BitVec.ushiftRight_xor_distrib]
    rw [← ih]
    congr 1
    cases b.getLsbD 0 <;> cases b'.getLsbD 0 <;> simp
    · ac_rfl
    · ac_rfl
    · rw [show r ^^^ a ^^^ (r' ^^^ a) = r ^^^ r' ^^^ (a ^^^ a) by ac_rfl]; simp

/-- The multiplication loop is linear in its accumulator and its first factor together. -/
theorem gmulLoop_xor_left (n : Nat) (r r' a a' b : Byte) :
    gmulLoop n (r ^^^ r') (a ^^^ a') b = gmulLoop n r a b ^^^ gmulLoop n r' a' b := by
  induction n generalizing r r' a a' b with
  | zero => rfl
  | succ n ih =>
    simp only [gmulLoop, xtime_xor]
    rw [← ih]
    congr 1
    cases b.getLsbD 0 <;> simp
    ac_rfl

/-- `a • (b ^ c) = (a • b) ^ (a • c)` (R402). -/
theorem gmul_xor_right (a b c : Byte) : gmul a (b ^^^ c) = gmul a b ^^^ gmul a c := by
  simpa [gmul] using gmulLoop_xor_right 8 0 0 a b c

/-- `(a ^ b) • c = (a • c) ^ (b • c)` (R402). -/
theorem gmul_xor_left (a b c : Byte) : gmul (a ^^^ b) c = gmul a c ^^^ gmul b c := by
  simpa [gmul] using gmulLoop_xor_left 8 0 0 a b c

/-- The round constants follow R407's recurrence up to the tenth. -/
theorem rcon_succ {j : Nat} (h1 : 1 ≤ j) (h2 : j < 10) : rcon (j + 1) = xtime (rcon j) := by
  interval_cases j <;> rfl

end Sys2Proof.Machine
end

