-- ==== Sys2Proof/Laws/Cipher.lean ====
section
/-! SUPPORT. The round primitives (42_block_cipher.md): AddRoundKey, the row shifts and the layout undo themselves
or one another, and the column matrices' products, coefficient by coefficient. -/

namespace Sys2Proof.Machine

/-- Exclusive-or with the same word twice changes nothing. -/
theorem xorWord4_xorWord4 (a b : Word4) : xorWord4 (xorWord4 a b) b = a := by
  simp [xorWord4]

/-- AddRoundKey undoes itself (R441). -/
theorem addRoundKey_addRoundKey (s k : Matrix) : addRoundKey (addRoundKey s k) k = s := by
  simp [addRoundKey, xorWord4_xorWord4]

/-- ShiftRows and InvShiftRows undo one another (R444, R445). -/
theorem invShiftRows_shiftRows (s : Matrix) : invShiftRows (shiftRows s) = s := rfl

theorem shiftRows_invShiftRows (s : Matrix) : shiftRows (invShiftRows s) = s := rfl

/-- Blocks and matrices correspond one to one (R440). -/
theorem toMatrix_fromMatrix (s : Matrix) : toMatrix (fromMatrix s) = s := rfl

theorem fromMatrix_toMatrix (b : Block) : fromMatrix (toMatrix b) = b := by
  apply Vector.ext
  intro i h
  simp only [fromMatrix, toMatrix, blockColumn]
  have : i = 0 ∨ i = 1 ∨ i = 2 ∨ i = 3 ∨ i = 4 ∨ i = 5 ∨ i = 6 ∨ i = 7 ∨ i = 8 ∨ i = 9 ∨ i = 10 ∨ i = 11 ∨
      i = 12 ∨ i = 13 ∨ i = 14 ∨ i = 15 := by omega
  rcases this with rfl | rfl | rfl | rfl | rfl | rfl | rfl | rfl | rfl | rfl | rfl | rfl | rfl | rfl | rfl | rfl <;>
    simp

/-- One column of the product of InvMixColumns and MixColumns, as coefficients of one byte. -/
theorem invMix_mix_coefficients : ∀ x : Byte,
    gmul 0x0e (gmul 0x02 x) ^^^ gmul 0x0b x ^^^ gmul 0x0d x ^^^ gmul 0x09 (gmul 0x03 x) = x ∧
    gmul 0x0e (gmul 0x03 x) ^^^ gmul 0x0b (gmul 0x02 x) ^^^ gmul 0x0d x ^^^ gmul 0x09 x = 0 ∧
    gmul 0x0e x ^^^ gmul 0x0b (gmul 0x03 x) ^^^ gmul 0x0d (gmul 0x02 x) ^^^ gmul 0x09 x = 0 ∧
    gmul 0x0e x ^^^ gmul 0x0b x ^^^ gmul 0x0d (gmul 0x03 x) ^^^ gmul 0x09 (gmul 0x02 x) = 0 := by
  decide +kernel

/-- The products in the other order. -/
theorem mix_invMix_coefficients : ∀ x : Byte,
    gmul 0x02 (gmul 0x0e x) ^^^ gmul 0x03 (gmul 0x09 x) ^^^ gmul 0x0d x ^^^ gmul 0x0b x = x ∧
    gmul 0x02 (gmul 0x0b x) ^^^ gmul 0x03 (gmul 0x0e x) ^^^ gmul 0x09 x ^^^ gmul 0x0d x = 0 ∧
    gmul 0x02 (gmul 0x0d x) ^^^ gmul 0x03 (gmul 0x0b x) ^^^ gmul 0x0e x ^^^ gmul 0x09 x = 0 ∧
    gmul 0x02 (gmul 0x09 x) ^^^ gmul 0x03 (gmul 0x0d x) ^^^ gmul 0x0b x ^^^ gmul 0x0e x = 0 := by
  decide +kernel

end Sys2Proof.Machine
end

