-- ==== Sys2Proof/Laws/Complete.lean ====
section
/-! SUPPORT. The completion of a command, said once for all ten: every command is `completeWith` of its result,
and a result is either an error, with its cause, or the state with the command's outputs committed. -/

namespace Sys2Proof.Machine

/-- The result of a command: its state with every output committed, or the error it raises. -/
def resultOf (i : Instr) (s : State) : Except CmdError State :=
  match i with
  | .keyExpand => keyExpandResult s
  | .encBlock => blockResult cipher s
  | .decBlock => blockResult invCipher s
  | .cbcEnc => cbcEncResult s
  | .cbcDec => cbcDecResult s
  | .kdf => kdfResult s
  | .tagCompute => tagComputeResult s
  | .tagVerify => tagVerifyResult s
  | .aeEncrypt hs => aeEncryptResult hs s
  | .aeDecrypt => aeDecryptResult s

/-- What a command still does when it fails (R604). -/
def onErrorOf (i : Instr) (s : State) : State :=
  match i with
  | .keyExpand => s
  | .encBlock => s
  | .decBlock => s
  | .cbcEnc => { s with outLen := 0 }
  | .cbcDec => { s with outLen := 0 }
  | .kdf => s
  | .tagCompute => s
  | .tagVerify => s
  | .aeEncrypt _ => { s with outLen := 0 }
  | .aeDecrypt => { s with outLen := 0 }

/-- What a command does whatever its outcome (R566). -/
def alwaysOf (i : Instr) (s : State) : State :=
  match i with
  | .keyExpand => s
  | .encBlock => s
  | .decBlock => s
  | .cbcEnc => s
  | .cbcDec => s
  | .kdf => s
  | .tagCompute => s
  | .tagVerify => s
  | .aeEncrypt _ => s.clearSchedule
  | .aeDecrypt => s.clearSchedule

/-- Every command is the completion of its result. -/
theorem exec_eq (i : Instr) (s : State) :
    exec i s = .next (s.completeWith (onErrorOf i) (alwaysOf i) (resultOf i s)) := by
  cases i <;> rfl

/-- A completion is the success of a result, or the failure of one. -/
theorem exec_cases {i : Instr} {s t : State} (h : exec i s = .next t) :
    (∃ u, resultOf i s = .ok u ∧ t = (alwaysOf i u).finish 0 0) ∨
    (∃ e, resultOf i s = .error e ∧ t = (alwaysOf i (onErrorOf i s)).finish e.code e.detail) := by
  rw [exec_eq, Host.Outcome.next.injEq] at h
  subst h
  cases resultOf i s with
  | ok u => exact .inl ⟨u, rfl, rfl⟩
  | error e => exact .inr ⟨e, rfl, rfl⟩

/-- A command whose result is a state completes with ERR_CODE 0 (R611). -/
theorem exec_ok {i : Instr} {s u : State} (h : resultOf i s = .ok u) :
    exec i s = .next ((alwaysOf i u).finish 0 0) := by
  rw [exec_eq, h]; rfl

/-- A command whose result is an error completes with it (R611, R604). -/
theorem exec_error {i : Instr} {s : State} {e : CmdError} (h : resultOf i s = .error e) :
    exec i s = .next ((alwaysOf i (onErrorOf i s)).finish e.code e.detail) := by
  rw [exec_eq, h]; rfl

/-- No command raises with ERR_CODE 0. -/
theorem CmdError.code_ne_zero (e : CmdError) : e.code ≠ 0 := by
  cases e with
  | contractViolation d => cases d <;> decide
  | _ => decide

/-- The codes of R601 that a command raises, with the details of R602. -/
theorem CmdError.code_detail (e : CmdError) :
    (e.code ≠ 7 ∧ 1 ≤ e.code.toNat ∧ e.code.toNat ≤ 6 ∧ e.detail = 0) ∨
    (e.code = 7 ∧ 1 ≤ e.detail.toNat ∧ e.detail.toNat ≤ 5) := by
  cases e with
  | contractViolation d => cases d <;> decide
  | _ => decide

/-! ## Results, one inversion lemma each -/

/-- KEY_EXPAND succeeds exactly on a valid length, and loads the schedule (R425). -/
theorem keyExpandResult_ok {s u : State} (h : keyExpandResult s = .ok u) :
    s.keyLenValid = true ∧ u = s.withSchedule := by
  unfold keyExpandResult at h
  split at h
  · cases h
  · split at h
    · cases h
    · rename_i hv
      exact ⟨by simpa using hv, (Except.ok.inj h).symm⟩

/-- A block command succeeds exactly with a schedule, and writes BLOCK_OUT (R455, R456). -/
theorem blockResult_ok {f : RoundKeys → Nat → Block → Block} {s u : State} (h : blockResult f s = .ok u) :
    s.ksValid = true ∧ u = s.writeBlockOut (f s.rk s.nr.toNat s.blockIn) := by
  unfold blockResult at h
  split at h
  · cases h
  · rename_i hk
    exact ⟨by simpa using hk, (Except.ok.inj h).symm⟩

/-- CBC_ENC succeeds exactly with a schedule and a message that fits, and writes its ciphertext (R480). -/
theorem cbcEncResult_ok {s u : State} (h : cbcEncResult s = .ok u) :
    s.ksValid = true ∧ s.messageTooLong = false ∧
      u = s.writeOutput (cbcEncrypt s.rk s.nr.toNat s.iv s.message) := by
  unfold cbcEncResult at h
  split at h
  · cases h
  · rename_i hk
    split at h
    · cases h
    · rename_i hm
      exact ⟨by simpa using hk, by simpa using hm, (Except.ok.inj h).symm⟩

/-- CBC_DEC succeeds only with a schedule, a message that fits and valid padding, and writes the plaintext
(R481). -/
theorem cbcDecResult_ok {s u : State} (h : cbcDecResult s = .ok u) :
    s.ksValid = true ∧ s.messageTooLong = false ∧ s.msgLen.toNat ≠ 0 ∧ s.msgLen.toNat % 16 = 0 ∧
      ∃ m, cbcDecrypt s.rk s.nr.toNat s.iv s.message = some m ∧ u = s.writeOutput m := by
  unfold cbcDecResult at h
  split at h
  · cases h
  · rename_i hk
    split at h
    · cases h
    · rename_i hm
      split at h
      · cases h
      · rename_i hl
        split at h
        · cases h
        · rename_i m hd
          exact ⟨by simpa using hk, by simpa using hm, fun e => hl (.inl e),
            Decidable.not_not.1 fun e => hl (.inr e), m, hd, (Except.ok.inj h).symm⟩

/-- KDF succeeds only with KEY_LEN at most 32 and ITER at least 1, and writes the derived keys (R520). -/
theorem kdfResult_ok {s u : State} (h : kdfResult s = .ok u) :
    s.keyLen.toNat ≤ 32 ∧ s.iter ≠ 0 ∧
      u = s.withDerivedKeys (deriveKeys s.keyBytes s.salt.toList s.iter.toNat) := by
  unfold kdfResult at h
  split at h
  · cases h
  · rename_i hk
    split at h
    · cases h
    · rename_i hi
      exact ⟨by omega, hi, (Except.ok.inj h).symm⟩

/-- TAG_COMPUTE succeeds only with a message that fits, and writes TAG (R540). -/
theorem tagComputeResult_ok {s u : State} (h : tagComputeResult s = .ok u) :
    s.messageTooLong = false ∧ u = s.writeTag s.messageTag := by
  unfold tagComputeResult at h
  split at h
  · cases h
  · rename_i hm
    exact ⟨by simpa using hm, (Except.ok.inj h).symm⟩

/-- TAG_VERIFY succeeds only with a message that fits and an equal tag, and writes nothing (R541). -/
theorem tagVerifyResult_ok {s u : State} (h : tagVerifyResult s = .ok u) :
    s.messageTooLong = false ∧ ctEqual s.messageTag s.tag = true ∧ u = s := by
  unfold tagVerifyResult at h
  split at h
  · cases h
  · rename_i hm
    split at h
    · cases h
    · rename_i he
      exact ⟨by simpa using hm, by simpa using he, (Except.ok.inj h).symm⟩

/-- AE_ENCRYPT succeeds exactly when its checks pass, and writes the blob (R562). -/
theorem aeEncryptResult_ok {hs : Bool} {s u : State} (h : aeEncryptResult hs s = .ok u) :
    aeEncryptCheck s = none ∧ u = s.writeBlob (s.blob hs) (s.drawsAfter hs) := by
  unfold aeEncryptResult at h
  split at h
  · cases h
  · rename_i hc
    exact ⟨hc, (Except.ok.inj h).symm⟩

/-- A mapped result is a state only when the result was one. -/
theorem Except.map_eq_ok {α β : Type} {r : Except CmdError α} {f : α → β} {u : β} (h : r.map f = .ok u) :
    ∃ m, r = .ok m ∧ u = f m := by
  cases r with
  | error e => cases h
  | ok m => exact ⟨m, rfl, (Except.ok.inj h).symm⟩

/-- AE_DECRYPT succeeds only when its checks pass and the blob opens, and writes the plaintext (R565). -/
theorem aeDecryptResult_ok {s u : State} (h : aeDecryptResult s = .ok u) :
    aeDecryptCheck s = none ∧ ∃ m, aeOpen s.keyBytes s.iter.toNat s.message = .ok m ∧ u = s.writeOutput m := by
  unfold aeDecryptResult at h
  split at h
  · cases h
  · rename_i hc
    obtain ⟨m, hm, hu⟩ := Except.map_eq_ok h
    exact ⟨hc, m, hm, hu⟩

end Sys2Proof.Machine
end

