-- ==== Sys2Proof/Laws/KeySchedule.lean ====
section
/-! SUPPORT. The key schedule: how many words the expansion gives, and that each word obeys the recurrence of R422
with the round constant of its position. -/

namespace Sys2Proof.Machine

/-- The loop adds its n words. -/
theorem expandLoop_length (nk n i j : Nat) (acc : List Word4) :
    (expandLoop nk n i j acc).length = n + acc.length := by
  induction n generalizing i j acc with
  | zero => simp [expandLoop]
  | succ n ih => simp only [expandLoop, ih, List.length_cons]; omega

/-- The number of words for each key length: 44, 52, 60 (R420). -/
theorem keyExpansion_length {key : List Byte} (h : key.length = 16 ∨ key.length = 24 ∨ key.length = 32) :
    (keyExpansion key).length = 4 * (roundCount (key.length / 4) + 1) := by
  simp only [keyExpansion, List.length_reverse, expandLoop_length, List.length_map, List.length_range]
  rcases h with h | h | h <;> rw [h] <;> rfl

/-- The loop keeps the words it was given and adds words that obey the recurrence (R422). -/
theorem expandLoop_spec (nk : Nat) (hnk : 0 < nk) (n i : Nat) (acc : List Word4) (hi : acc.length = i)
    (hni : nk ≤ i) :
    (∀ m < i, (expandLoop nk n i ((i - 1) / nk) acc).reverse[m]? = acc.reverse[m]?) ∧
    ∀ m, i ≤ m → m < i + n →
      (expandLoop nk n i ((i - 1) / nk) acc).reverse.getD m Word4.zero =
        xorWord4 ((expandLoop nk n i ((i - 1) / nk) acc).reverse.getD (m - nk) Word4.zero)
          (scheduleTemp nk m (m / nk)
            ((expandLoop nk n i ((i - 1) / nk) acc).reverse.getD (m - 1) Word4.zero)) := by
  induction n generalizing i acc with
  | zero => exact ⟨fun _ _ => rfl, fun m h1 h2 => by omega⟩
  | succ n ih =>
    have hj : (if i % nk = 0 then (i - 1) / nk + 1 else (i - 1) / nk) = i / nk := by
      obtain ⟨k, rfl⟩ : ∃ k, i = k + 1 := ⟨i - 1, by omega⟩
      rw [Nat.add_sub_cancel, Nat.succ_div]
      simp only [Nat.dvd_iff_mod_eq_zero]
      split <;> rfl
    simp only [expandLoop, hj]
    generalize hw : xorWord4 (acc.getD (nk - 1) Word4.zero)
      (scheduleTemp nk i (i / nk) (acc.getD 0 Word4.zero)) = w
    obtain ⟨keep, next⟩ := ih (i + 1) (w :: acc) (by simp [hi]) (by omega)
    rw [Nat.add_sub_cancel] at keep next
    have old (m : Nat) (hm : m < i) :
        (expandLoop nk n (i + 1) (i / nk) (w :: acc)).reverse[m]? = acc.reverse[m]? := by
      rw [keep m (by omega), List.reverse_cons, List.getElem?_append_left (by simp [hi, hm])]
    have back (k : Nat) (hk : k < i) :
        (expandLoop nk n (i + 1) (i / nk) (w :: acc)).reverse.getD (i - 1 - k) Word4.zero =
          acc.getD k Word4.zero := by
      rw [List.getD, old _ (by omega), List.getElem?_reverse (by omega), List.getD]
      congr 2
      omega
    refine ⟨old, fun m h1 h2 => ?_⟩
    by_cases he : m = i
    · subst he
      have new : (expandLoop nk n (m + 1) (m / nk) (w :: acc)).reverse.getD m Word4.zero = w := by
        rw [List.getD, keep m (by omega), List.reverse_cons, List.getElem?_append_right (by simp [hi])]
        simp [hi]
      have b1 := back (nk - 1) (by omega)
      have b2 := back 0 (by omega)
      rw [show m - 1 - (nk - 1) = m - nk by omega] at b1
      rw [new, b1, show m - 1 = m - 1 - 0 by omega, b2, hw]
    · exact next m (by omega) (by omega)

/-- The words of an expanded key: the key's own first, then the recurrence of R422. -/
theorem keyExpansion_spec {key : List Byte} (h : key.length = 16 ∨ key.length = 24 ∨ key.length = 32) :
    (∀ i < key.length / 4, (keyExpansion key).getD i Word4.zero = keyWord key i) ∧
    ∀ i, key.length / 4 ≤ i → i < 4 * (roundCount (key.length / 4) + 1) →
      (keyExpansion key).getD i Word4.zero =
        xorWord4 ((keyExpansion key).getD (i - key.length / 4) Word4.zero)
          (scheduleTemp (key.length / 4) i (i / (key.length / 4)) ((keyExpansion key).getD (i - 1) Word4.zero)) := by
  have hr : key.length / 4 ≤ 4 * (roundCount (key.length / 4) + 1) := by
    rcases h with h | h | h <;> rw [h] <;> decide
  have hn : 0 < key.length / 4 := by omega
  obtain ⟨keep, next⟩ := expandLoop_spec (key.length / 4) hn
    (4 * (roundCount (key.length / 4) + 1) - key.length / 4) (key.length / 4)
    ((List.range (key.length / 4)).map (keyWord key)).reverse (by simp) (Nat.le_refl _)
  rw [show (key.length / 4 - 1) / (key.length / 4) = 0 from Nat.div_eq_of_lt (by omega)] at keep next
  refine ⟨fun i hi => ?_, fun i h1 h2 => next i h1 (by omega)⟩
  have := keep i hi
  rw [List.reverse_reverse] at this
  simp only [keyExpansion, List.getD]
  rw [this]
  simp [hi]

/-- A word of the store is the word of the schedule, zero past its end (R130). -/
theorem loadSchedule_getElem (ws : List Word4) (i : Fin 60) :
    (loadSchedule ws)[i] = ws.getD i.val Word4.zero := by
  simp [loadSchedule]

end Sys2Proof.Machine
end

