-- ==== Sys2Proof/Laws/Commands.lean ====
section
/-! SUPPORT. What the ten commands have in common: what none of them changes, and how far their output reaches. -/

namespace Sys2Proof.Machine

/-- The bytes a command writes to DOUT, with the length that becomes OUT_LEN, if it writes any: they never reach
past the window (R115, R125). -/
theorem resultOf_ok_dout {i : Instr} {s u : State} (h : resultOf i s = .ok u) :
    (u.dout = s.dout ∧ u.outLen = s.outLen) ∨
      ∃ bs, u.dout = s.dout.storeFrom 0 bs ∧ u.outLen = BitVec.ofNat 32 bs.length ∧
        bs.length ≤ s.params.doutBytes := by
  have tl : s.messageTooLong = false → s.msgLen.toNat ≤ s.params.dinBytes := by
    intro h; simpa [State.messageTooLong] using h
  cases i with
  | keyExpand => obtain ⟨-, e⟩ := keyExpandResult_ok h; simp [e]
  | encBlock => obtain ⟨-, e⟩ := blockResult_ok h; simp [e]
  | decBlock => obtain ⟨-, e⟩ := blockResult_ok h; simp [e]
  | cbcEnc =>
    obtain ⟨-, hm, e⟩ := cbcEncResult_ok h
    refine .inr ⟨cbcEncrypt s.rk s.nr.toNat s.iv s.message, by simp [e], by simp [e], ?_⟩
    have := tl hm
    simp only [cbcEncrypt_length, State.message_length, Params.doutBytes]; omega
  | cbcDec =>
    obtain ⟨-, hm, -, h16, m, hd, e⟩ := cbcDecResult_ok h
    refine .inr ⟨m, by simp [e], by simp [e], ?_⟩
    have := cbcDecrypt_length (by simpa using h16) hd
    have := tl hm
    simp only [State.message_length] at *; simp only [Params.doutBytes]; omega
  | kdf => obtain ⟨-, -, e⟩ := kdfResult_ok h; simp [e]
  | tagCompute => obtain ⟨-, e⟩ := tagComputeResult_ok h; simp [e]
  | tagVerify => obtain ⟨-, -, e⟩ := tagVerifyResult_ok h; simp [e]
  | aeEncrypt hs =>
    obtain ⟨hc, e⟩ := aeEncryptResult_ok h
    refine .inr ⟨s.blob hs, by simp [e], by simp [e], ?_⟩
    have : s.messageTooLong = false := by
      unfold aeEncryptCheck at hc; split_ifs at hc; simp_all
    have := tl this
    simp only [State.blob, aeBlob_length, State.message_length, Params.doutBytes]; omega
  | aeDecrypt =>
    obtain ⟨hc, m, hm, e⟩ := aeDecryptResult_ok h
    refine .inr ⟨m, by simp [e], by simp [e], ?_⟩
    have : s.messageTooLong = false ∧ s.msgLen.toNat % 16 = 0 := by
      unfold aeDecryptCheck at hc; split_ifs at hc
      rename_i h1 h2 h3 h4 h5 h6
      exact ⟨by simpa using h4, by omega⟩
    have h1 := tl this.1
    have := aeOpen_length (by simpa using this.2) hm
    simp only [State.message_length] at *; simp only [Params.doutBytes]; omega

/-- Some of what no command changes, whatever its outcome: what the invariant and the memory frame need. -/
theorem exec_keeps {i : Instr} {s t : State} (h : exec i s = .next t) :
    t.params = s.params ∧ t.din = s.din ∧ t.epoch = s.epoch ∧ t.bwerr = s.bwerr ∧ t.msgLen = s.msgLen := by
  rcases exec_cases h with ⟨u, h', rfl⟩ | ⟨e, h', rfl⟩
  · cases i with
    | keyExpand => obtain ⟨-, e⟩ := keyExpandResult_ok h'; simp [e, alwaysOf]
    | encBlock => obtain ⟨-, e⟩ := blockResult_ok h'; simp [e, alwaysOf]
    | decBlock => obtain ⟨-, e⟩ := blockResult_ok h'; simp [e, alwaysOf]
    | cbcEnc => obtain ⟨-, -, e⟩ := cbcEncResult_ok h'; simp [e, alwaysOf]
    | cbcDec => obtain ⟨-, -, -, -, m, -, e⟩ := cbcDecResult_ok h'; simp [e, alwaysOf]
    | kdf => obtain ⟨-, -, e⟩ := kdfResult_ok h'; simp [e, alwaysOf]
    | tagCompute => obtain ⟨-, e⟩ := tagComputeResult_ok h'; simp [e, alwaysOf]
    | tagVerify => obtain ⟨-, -, e⟩ := tagVerifyResult_ok h'; simp [e, alwaysOf]
    | aeEncrypt hs => obtain ⟨-, e⟩ := aeEncryptResult_ok h'; simp [e, alwaysOf]
    | aeDecrypt => obtain ⟨-, m, -, e⟩ := aeDecryptResult_ok h'; simp [e, alwaysOf]
  · cases i <;> simp [alwaysOf, onErrorOf]

end Sys2Proof.Machine
end

