-- ==== Sys2Proof/Laws/Hash.lean ====
section
/-! SUPPORT. Lengths and shapes of the hash functions' inputs, and what the loop of PBKDF2 adds. -/

namespace Sys2Proof.Machine

/-- The padded message is whole 64-byte blocks (R501). -/
theorem shaPad_length (m : List Byte) : (shaPad m).length % 64 = 0 := by
  simp only [shaPad, List.length_append, List.length_replicate, List.length_cons, List.length_nil,
    show ∀ n, (be64 n).length = 8 from fun _ => rfl]
  omega

/-- The inner key of HMAC is one block, for a key of any length (R510). -/
theorem hmacKey_length (k : List Byte) : (hmacKey k).length = 64 := by
  simp only [hmacKey]
  split
  · simp
  · simp only [List.length_append, List.length_replicate]
    omega

/-- One round of the loop of PBKDF2 (R512). -/
theorem pbkdf2Loop_succ (p : List Byte) (n : Nat) (u t : Digest) :
    pbkdf2Loop p (n + 1) u t = pbkdf2Loop p n (hmac p u.toList) (xorBytes t (hmac p u.toList)) := by
  rw [pbkdf2Loop]

/-- The 48 bytes of the derived key material: T_1 and the first half of T_2 (R513). -/
theorem pbkdf2_of_48 (p s : List Byte) (c : Nat) :
    pbkdf2 p s c 48 = (pbkdf2Block p s c 1).toList ++ (pbkdf2Block p s c 2).toList.take 16 := by
  have e : pbkdf2 p s c 48 =
      (((List.range 2).map fun i => (pbkdf2Block p s c (i + 1)).toList).flatten).take 48 := by
    unfold pbkdf2
    simp only [show (48 + 31) / 32 = 2 by decide]
  rw [e]
  generalize hf : (fun i => (pbkdf2Block p s c (i + 1)).toList) = f
  have : ((List.range 2).map f).flatten = f 0 ++ f 1 := by simp [List.range_succ]
  rw [this, ← hf, List.take_append]
  simp

end Sys2Proof.Machine
end

