-- ==== Sys2Proof/Laws/PerInstr.lean ====
section
/-! SUPPORT. Statements for all instructions, made one instruction at a time. The family `LegalWord`: every command
is well formed, its word is legal (R302), and the word's fields are the command's (R300, R301). -/

namespace Sys2Proof.Laws.LegalWord

/-- The command is well formed and its word is legal, with OP, HS and RSV as R301 lists them. -/
def Statement (i : Instr) : Prop :=
  i.wellFormed = true ∧ CommandWord.legal (encode i) = true ∧ CommandWord.op (encode i) = i.op ∧
    CommandWord.hs (encode i) = i.hs ∧ CommandWord.rsv (encode i) = 0

theorem keyExpand : Statement .keyExpand := by unfold Statement; decide

theorem encBlock : Statement .encBlock := by unfold Statement; decide

theorem decBlock : Statement .decBlock := by unfold Statement; decide

theorem cbcEnc : Statement .cbcEnc := by unfold Statement; decide

theorem cbcDec : Statement .cbcDec := by unfold Statement; decide

theorem kdf : Statement .kdf := by unfold Statement; decide

theorem tagCompute : Statement .tagCompute := by unfold Statement; decide

theorem tagVerify : Statement .tagVerify := by unfold Statement; decide

theorem aeEncrypt (hs : Bool) : Statement (.aeEncrypt hs) := by
  unfold Statement
  cases hs <;> decide

theorem aeDecrypt : Statement .aeDecrypt := by unfold Statement; decide

end Sys2Proof.Laws.LegalWord
end

