-- ==== Sys2Proof/Tests/Slice0.lean ====
section
/-! SUPPORT. Tests and witnesses. Every expected value comes from the spec: a word from the table of
30_encoding.md R301, or a vector of 95_test_vectors.md, named in the comment. A theorem `witness_<Name>` shows
concrete states that meet the hypotheses of `Obligations.<Name>`, clause by clause. -/

namespace Sys2Proof.Tests

open Sys2Proof.Machine Sys2Proof.Spec

-- Kernel evaluations one after another: side by side they ask for more threads than memory allows.
set_option Elab.async false

/-! ## Helpers -/

/-- The n bytes written in hexadecimal as a number, byte 0 first. -/
def bytes (n x : Nat) : List Byte := (List.range n).map fun i => BitVec.ofNat 8 (x / 256 ^ (n - 1 - i))

/-- A 16-byte value written in hexadecimal. -/
def block (x : Nat) : Block := firstBytes 16 (bytes 16 x)

/-- A 32-byte value written in hexadecimal. -/
def digest (x : Nat) : Digest := firstBytes 32 (bytes 32 x)

/-- The state after reset of an engine placed at 0x40000 with DIN_BYTES = 4096. -/
def start : State := { State.reset with params := ⟨0x40000, 4096⟩ }

/-- The state after a command. -/
def after (i : Instr) (s : State) : State :=
  match exec i s with
  | .next t => t
  | _ => s

/-- The STATUS word after a step, or all ones if it stops. -/
def statusAfter (s : State) : Word :=
  match step s with
  | .next t => t.statusWord
  | _ => 0xFFFFFFFF

/-- The reply of a step. -/
def replyOf (s : State) : Option Reply :=
  match step s with
  | .next t => t.reply
  | _ => none

/-- `s` with n message bytes in DIN and MSG_LEN = n. -/
def withMessage (m : List Byte) (s : State) : State :=
  { s with din := Memory.storeFrom [] 0 m, msgLen := BitVec.ofNat 32 m.length }

/-- The first n bytes of DOUT. -/
def output (n : Nat) (s : State) : List Byte := (List.range n).map s.doutByte

/-- `s` with a schedule loaded by KEY_EXPAND of an n-byte key. -/
def loaded (n x : Nat) (s : State) : State :=
  after .keyExpand { s with key := firstBytes 32 (bytes n x), keyLen := BitVec.ofNat 32 n }

/-- The key and IV of the CBC vectors (V-CBC-1 to V-CBC-8). -/
def cbcState : State :=
  { loaded 16 0x2b7e151628aed2a6abf7158809cf4f3c start with iv := block 0x000102030405060708090a0b0c0d0e0f }

/-- "hello world". -/
def hello : List Byte := bytes 11 0x68656c6c6f20776f726c64

/-- The KEY "0123456789abcdef", SALT and ITER = 1 of V-KDF-3 and the AE vectors. -/
def aeState : State :=
  { start with
    key := firstBytes 32 (bytes 16 0x30313233343536373839616263646566), keyLen := 16
    salt := block 0x000102030405060708090a0b0c0d0e0f, iter := 1 }

/-- The blob of V-AE-1. -/
def helloBlob : List Byte :=
  bytes 32 0xa9295ddef9c32985ccd4d93f9bc00ed3792fd992053247a7af4c83dcc5832abc ++
    bytes 32 0x000102030405060708090a0b0c0d0e0f513641f747affe9d52161cf9322a39d8

/-- The DK_AK and SALT of the MAC vectors, with a message. -/
def macState (m : List Byte) : State :=
  withMessage m { start with
    dkAk := block 0x2970e48a59ece7365af77413e9cf86ba, salt := block 0x000102030405060708090a0b0c0d0e0f }

/-! ## Decoding: the words of 30_encoding.md R301, written out field by field (RSV, HS, OP) -/

theorem test_decode_key_expand :
    decodeWord 0b00000000000000000000000_0_00000001 = .ok .keyExpand := by decide
theorem test_decode_enc_block : decodeWord 0b00000000000000000000000_0_00000010 = .ok .encBlock := by decide
theorem test_decode_dec_block : decodeWord 0b00000000000000000000000_0_00000011 = .ok .decBlock := by decide
theorem test_decode_cbc_enc : decodeWord 0b00000000000000000000000_0_00000100 = .ok .cbcEnc := by decide
theorem test_decode_cbc_dec : decodeWord 0b00000000000000000000000_0_00000101 = .ok .cbcDec := by decide
theorem test_decode_kdf : decodeWord 0b00000000000000000000000_0_00000110 = .ok .kdf := by decide
theorem test_decode_tag_compute :
    decodeWord 0b00000000000000000000000_0_00000111 = .ok .tagCompute := by decide
theorem test_decode_tag_verify : decodeWord 0b00000000000000000000000_0_00001000 = .ok .tagVerify := by decide
theorem test_decode_ae_encrypt :
    decodeWord 0b00000000000000000000000_0_00001001 = .ok (.aeEncrypt false) := by decide
theorem test_decode_ae_encrypt_hs :
    decodeWord 0b00000000000000000000000_1_00001001 = .ok (.aeEncrypt true) := by decide
theorem test_decode_ae_decrypt : decodeWord 0b00000000000000000000000_0_00001010 = .ok .aeDecrypt := by decide

/-- V-CMD-1: the illegal words, each with the check of R302 it fails first. -/
theorem test_decode_refuses_illegal_words :
    decodeWord 0x00000000 = .error .reservedOp ∧ decodeWord 0x0000000B = .error .reservedOp ∧
    decodeWord 0x000000FF = .error .reservedOp ∧ decodeWord 0x00000102 = .error .saltBit ∧
    decodeWord 0x00000209 = .error .reservedBits ∧ decodeWord 0x80000001 = .error .reservedBits := by decide

/-! ## WellFormed: one ill-formed word for each check, and one ill-formed configuration for each of R7 -/

theorem test_illformed_op : CommandWord.opAssigned 0x0000000B = false ∧ CommandWord.opAssigned 0 = false := by
  decide
theorem test_illformed_rsv :
    CommandWord.rsvZero 0x00000209 = false ∧ CommandWord.legal 0x80000001 = false := by decide
theorem test_illformed_hs :
    CommandWord.hsAllowed 0x00000102 = false ∧ CommandWord.hsAllowed 0x00000109 = true := by decide

theorem test_illformed_params :
    Params.wf ⟨0x40004, 4096⟩ = false ∧ Params.wf ⟨0x40000, 4100⟩ = false ∧ Params.wf ⟨0x40000, 48⟩ = false ∧
    Params.wf ⟨0x40000, 65488⟩ = false ∧ Params.wf ⟨0x40000, 64⟩ = true ∧ Params.wf ⟨0, 65472⟩ = true := by
  decide

/-! ## One command each -/

/-- V-KS-1: AES-128 of FIPS-197 A.1, its last word, NR, INFO and the zero words past its end. -/
theorem test_key_expand_128 :
    let t := after .keyExpand
      { start with key := firstBytes 32 (bytes 16 0x2b7e151628aed2a6abf7158809cf4f3c), keyLen := 16 }
    t.rk[43] = ⟨0xb6, 0x63, 0x0c, 0xa6⟩ ∧ t.rk[44] = ⟨0, 0, 0, 0⟩ ∧ t.infoWord = 0x0100000A ∧
      t.statusWord = 0x00000006 := by decide +kernel

/-- V-KS-3: AES-256 of FIPS-197 A.3, a word with the extra SubWord step and the last word. -/
theorem test_key_expand_256 :
    let t := loaded 32 0x603deb1015ca71be2b73aef0857d77811f352c073b6108d72d9810a30914dff4 start
    t.rk[12] = ⟨0xa8, 0xb0, 0x9c, 0x1a⟩ ∧ t.rk[59] = ⟨0x70, 0x6c, 0x63, 0x1e⟩ ∧ t.nr = 14 := by decide +kernel

/-- V-BC-1: FIPS-197 C.1. -/
theorem test_enc_block_128 :
    (after .encBlock { loaded 16 0x000102030405060708090a0b0c0d0e0f start with
      blockIn := block 0x00112233445566778899aabbccddeeff }).blockOut =
      block 0x69c4e0d86a7b0430d8cdb78070b4c55a := by decide +kernel

/-- V-BC-6: no schedule after reset. -/
theorem test_enc_block_without_schedule :
    statusAfter (start.withFetchWord 32 0x00000002) = 0x00001702 := by decide +kernel

/-- V-BC-2: FIPS-197 C.2, decryption under a 24-byte key. -/
theorem test_dec_block_192 :
    (after .decBlock { loaded 24 0x000102030405060708090a0b0c0d0e0f1011121314151617 start with
      blockIn := block 0xdda97ca4864cdfe06eaf70a0ec0d7191 }).blockOut =
      block 0x00112233445566778899aabbccddeeff := by decide +kernel

/-- V-BC-3: FIPS-197 C.3, decryption under a 32-byte key. -/
theorem test_dec_block_256 :
    (after .decBlock
      { loaded 32 0x000102030405060708090a0b0c0d0e0f101112131415161718191a1b1c1d1e1f start with
        blockIn := block 0x8ea2b7ca516745bfeafc49904b496089 }).blockOut =
      block 0x00112233445566778899aabbccddeeff := by decide +kernel

/-- V-CBC-5b: 17 bytes pad to two blocks. -/
theorem test_cbc_enc_two_blocks :
    let t := after .cbcEnc (withMessage (List.replicate 17 0x41) cbcState)
    t.outLen = 32 ∧ output 32 t =
      bytes 32 0xab74350f2f19b4ea4de050762e12dbc1cb8157f1c871b8c6102c4942c6588c2c := by decide +kernel

/-- V-CBC-8: MSG_LEN = 4097 with a schedule and without one. -/
theorem test_cbc_enc_error_order :
    (after .cbcEnc { cbcState with msgLen := 4097 }).statusWord = 0x00002706 ∧
    (after .cbcEnc { start with msgLen := 4097 }).statusWord = 0x00001702 := by decide +kernel

/-- V-CBC-2 decrypted, and V-CBC-3: an empty result is a success. -/
theorem test_cbc_dec_of_hello_and_empty :
    (let t := after .cbcDec (withMessage (bytes 16 0x66ee4dfaec56a71cd33cd4c5151d7d88) cbcState);
      t.outLen = 11 ∧ output 11 t = hello) ∧
    (let t := after .cbcDec (withMessage (bytes 16 0xc84af0b613435d5d9182801a9bd9320b) cbcState);
      t.outLen = 0 ∧ t.statusWord = 0x00000006) := by decide +kernel

/-- V-CBC-6 rows 1 and 4, and V-CBC-8's 7/3. -/
theorem test_cbc_dec_errors :
    (let t := after .cbcDec (withMessage (bytes 16 0x50fe67cc996d32b6da0937e99bafec60) cbcState);
      t.statusWord = 0x00000606 ∧ t.outLen = 0) ∧
    (after .cbcDec (withMessage (bytes 16 0x117a1fc0e62d2b69779b3d0f75b76ff3) cbcState)).statusWord = 0x00000606 ∧
    (after .cbcDec { cbcState with msgLen := 15 }).statusWord = 0x00003706 := by decide +kernel

/-- V-KDF-4: two iterations. -/
theorem test_kdf_two_iterations :
    let t := after .kdf { aeState with iter := 2 }
    t.dkCk = block 0x1e15b093eeffbb6a2c285ffbe3d259ae ∧ t.dkAk = block 0x0eacddd8690bcb83d97a7484d441ab23 ∧
      t.dkIv = block 0x538b078a20b1724d75e5e7c25a369237 := by decide +kernel

/-- V-KDF-6c and V-KDF-6d: the key check comes before the ITER check. -/
theorem test_kdf_error_order :
    (after .kdf { start with keyLen := 33, iter := 0 }).statusWord = 0x00000302 ∧
    (after .kdf { start with keyLen := 32, iter := 0 }).statusWord = 0x00005702 := by decide +kernel

/-- V-MAC-1: the tag of the salt alone. -/
theorem test_tag_compute_empty_message :
    (after .tagCompute (macState [])).tag =
      digest 0x4f5107bf0a498c817f52ca9b02b0f8257d6c46db5a93bf9f6d29222b554c8465 := by decide +kernel

/-- V-MAC-3a and V-MAC-3c: the right tag, and one whose last byte differs. -/
theorem test_tag_verify :
    let s := macState (bytes 16 0x513641f747affe9d52161cf9322a39d8)
    (after .tagVerify { s with
      tag := digest 0xa9295ddef9c32985ccd4d93f9bc00ed3792fd992053247a7af4c83dcc5832abc }).statusWord =
      0x00000002 ∧
    (after .tagVerify { s with
      tag := digest 0xa9295ddef9c32985ccd4d93f9bc00ed3792fd992053247a7af4c83dcc5832abd }).statusWord =
      0x00000502 := by decide +kernel

/-- V-AE-1, from the command word to the blob. -/
theorem test_ae_encrypt_hello :
    (match step ((withMessage hello aeState).withFetchWord 32 0x00000109) with
      | .next t => t.statusWord == 0x00000002 && t.outLen == 64 && output 64 t == helloBlob && t.draws == 0 &&
          t.tag == start.tag && t.dkCk == start.dkCk
      | _ => false) = true := by decide +kernel

/-- V-AE-6 and V-AE-7: the validation order, and a byte above 0x7F. -/
theorem test_ae_encrypt_errors :
    (after (.aeEncrypt true) { aeState with keyLen := 0, iter := 0 }).statusWord = 0x00000102 ∧
    (after (.aeEncrypt true) { aeState with keyLen := 8, iter := 0 }).statusWord = 0x00000302 ∧
    (after (.aeEncrypt true) { aeState with iter := 0 }).statusWord = 0x00000202 ∧
    (after (.aeEncrypt true) { aeState with msgLen := 4097, iter := 0 }).statusWord = 0x00002702 ∧
    (after (.aeEncrypt true) (withMessage (bytes 6 0x68c3a96c6c6f) { aeState with iter := 0 })).statusWord =
      0x00000402 ∧
    (after (.aeEncrypt true) (withMessage hello { aeState with iter := 0 })).statusWord = 0x00005702 := by
  decide +kernel

/-- V-AE-1 decrypted. -/
theorem test_ae_decrypt_hello :
    let t := after .aeDecrypt (withMessage helloBlob aeState)
    t.statusWord = 0x00000002 ∧ t.outLen = 11 ∧ output 11 t = hello := by decide +kernel

/-- V-AE-11 row 1 and V-AE-5 at byte 63: a valid tag over bad padding, and a flipped ciphertext bit. -/
theorem test_ae_decrypt_errors :
    (after .aeDecrypt (withMessage
      (bytes 32 0x3d5a791e73d2a73510df6f61a0c37ff4654d2d75289cc14104a414f73a5ec431 ++
        bytes 32 0x000102030405060708090a0b0c0d0e0fe74aeffebd367945b9eb34fc828f7120) aeState)).statusWord =
      0x00000602 ∧
    (after .aeDecrypt (withMessage (helloBlob.take 63 ++ [0xd9]) aeState)).statusWord = 0x00000502 := by
  decide +kernel

/-! ## Tables (V-GF-1 to V-GF-3) -/

theorem test_tables :
    gmul 0x57 0x83 = 0xC1 ∧ gmul 0x57 0x13 = 0xFE ∧ sbox 0x53 = 0xED ∧ sbox 0xFF = 0x16 ∧
    invSbox 0x00 = 0x52 ∧ (List.range 10).map (fun i => rcon (i + 1)) = bytes 10 0x01020408102040801b36 ∧
    mixColumn ⟨0xdb, 0x13, 0x53, 0x45⟩ = ⟨0x8e, 0x4d, 0xa1, 0xbc⟩ ∧
    invMixColumn ⟨0x4d, 0x7e, 0xbd, 0xf8⟩ = ⟨0x2d, 0x26, 0x31, 0x4c⟩ := by decide +kernel

/-! ## The bus (V-BUS, V-CMD-1, V-RST) -/

/-- V-BUS-1 and V-BUS-2: a word written to KEY is stored little-endian and reads 0. -/
theorem test_bus_key_is_write_only :
    (match step { start with turns := [writeTurn start 0x040 0x16157E2B, readTurn start 0x040] } with
      | .next t => windowBytes t .key 0 4 == bytes 4 0x2b7e1516 && t.reply == some (.write .okay) &&
          replyOf t == some (.read .okay 0)
      | _ => false) = true := by decide +kernel

/-- V-BUS-3 and V-BUS-5: a misaligned read, and a 16-bit read. -/
theorem test_bus_errors :
    replyOf { start with turns := [.host (.read 0x40002 4)] } = some (.read .error 0) ∧
    replyOf { start with turns := [.host (.read 0x40000 2)] } = some (.read .error 0) := by decide +kernel

/-- V-BUS-9 and V-BUS-6: ITER and INFO after reset, and a reserved offset. -/
theorem test_bus_reset_reads :
    replyOf { start with turns := [readTurn start 0x018] } = some (.read .okay 0x000186A0) ∧
    replyOf { start with turns := [readTurn start 0x020] } = some (.read .okay 0x01000000) ∧
    replyOf { start with turns := [readTurn start 0x024] } = some (.read .okay 0) := by decide +kernel

/-- V-CMD-1: an illegal word with KS_VALID = 1, and a legal word. -/
theorem test_bus_commands :
    statusAfter { cbcState with turns := [writeTurn start 0x004 0x00000102] } = 0x00000806 ∧
    statusAfter { start with turns := [writeTurn start 0x004 0x00000109] } = 0x00000001 := by decide +kernel

/-- V-RST-2: reset while BUSY. -/
theorem test_reset_while_busy :
    statusAfter { start with seq := .busy 0x00000001, keyLen := 16, doneIe := true, turns := [.reset] } = 0 := by
  decide +kernel

/-! ## Witnesses: encoding, steps, completion -/

theorem witness_CommandWordsDecodeToTheirCommands :
    (0x100 : Word).extractLsb' 0 8 = 0 ∧ 0x0B ≤ ((0x0000000B : Word).extractLsb' 0 8).toNat ∧
    0x0B ≤ ((0xFFFFFFFF : Word).extractLsb' 0 8).toNat := by decide

/-- A state in which a command is latched, and one in which none is, with and without a pending turn. -/
theorem witness_StepRunsTheLatchedCommand :
    (∃ s : State, s.seq = .busy 0x00000109 ∧ decodeWord 0x00000109 = .ok (.aeEncrypt true) ∧ s.turns = []) ∧
    (∃ s : State, s.seq = .busy 0x00000001 ∧ decodeWord 0x00000001 = .ok .keyExpand ∧
      s.turns = .sequencer :: [.reset]) ∧
    (∃ s : State, s.seq = .idle ∧ s.turns = []) ∧ (∃ s : State, s.seq = .idle ∧ s.turns = .sequencer :: []) :=
  ⟨⟨{ start with seq := .busy 0x00000109 }, by decide⟩,
    ⟨{ start with seq := .busy 0x00000001, turns := [.sequencer, .reset] }, by decide⟩,
    ⟨start, by decide⟩, ⟨{ start with turns := [.sequencer] }, by decide⟩⟩

theorem witness_CommandWriteIsAcceptedOrRejected :
    (∃ s : State, s.seq = .idle ∧ s.params.wf = true ∧ s.turns = writeTurn s 0x004 0x0000000A :: [] ∧
      decodeWord 0x0000000A = .ok .aeDecrypt) ∧
    (∃ s : State, s.seq = .idle ∧ s.params.wf = true ∧ s.turns = writeTurn s 0x004 0x0000000B :: [] ∧
      ∀ i, decodeWord 0x0000000B ≠ .ok i) :=
  ⟨⟨{ start with turns := [writeTurn start 0x004 0x0000000A] }, by decide⟩,
    ⟨{ start with turns := [writeTurn start 0x004 0x0000000B] }, by decide, by decide, by decide,
      fun i h => by have e : decodeWord 0x0000000B = .error .reservedOp := by decide
                    rw [e] at h; cases h⟩⟩

/-- Every command answers a next state: the hypothesis `exec i s = .next t` of the frames and outcomes
(`CommandsChangeOnlyTheirOutputs`, `OutcomesOfEachCommand`, `OutputBytesPastOutLenAreKept`). -/
theorem exec_after (i : Instr) (s : State) : exec i s = .next (after i s) := by
  cases i <;> rfl

theorem witness_CommandsChangeOnlyTheirOutputs : ∀ i, ∃ s t, s.params.wf = true ∧ exec i s = .next t :=
  fun i => ⟨start, after i start, by decide, exec_after i start⟩

/-- The failure arm of every command. -/
theorem witness_FailedCommandWritesNoOutput :
    (after .keyExpand start).errCode ≠ 0 ∧ (after .encBlock start).errCode ≠ 0 ∧
    (after .decBlock start).errCode ≠ 0 ∧ (after .cbcEnc start).errCode ≠ 0 ∧
    (after .cbcDec start).errCode ≠ 0 ∧ (after .kdf { start with keyLen := 33 }).errCode ≠ 0 ∧
    (after .tagCompute { start with msgLen := 4097 }).errCode ≠ 0 ∧
    (after .tagVerify { start with msgLen := 4097 }).errCode ≠ 0 ∧
    (after (.aeEncrypt false) start).errCode ≠ 0 ∧ (after .aeDecrypt start).errCode ≠ 0 := by decide +kernel

/-- KEY bytes from 16 on and DIN bytes from 3 on replaced, under AE_ENCRYPT. -/
theorem witness_CommandsReadOnlyTheirOperands :
    let s := withMessage (bytes 3 0x414243) aeState
    let key' := firstBytes 32 (bytes 32 0x30313233343536373839616263646566ffffffffffffffffffffffffffffffff)
    let din' := Memory.storeFrom [] 0 (bytes 4 0x414243ff)
    (∀ k < s.keyLen.toNat, { s with key := key', din := din' }.windowByte .key k = s.windowByte .key k) ∧
    (∀ k < s.msgLen.toNat, { s with key := key', din := din' }.windowByte .din k = s.windowByte .din k) ∧
    key' ≠ s.key ∧ din' ≠ s.din ∧ (∃ t, exec (.aeEncrypt true) s = .next t) ∧
    ∃ t, exec (.aeEncrypt true) { s with key := key', din := din' } = .next t :=
  ⟨by decide +kernel, by decide +kernel, by decide +kernel, by decide +kernel, ⟨_, rfl⟩, ⟨_, rfl⟩⟩

/-! ## Witnesses: reset and the invariant -/

theorem witness_ResetLeavesTheListedValues :
    ∃ s : State, s.turns = .reset :: [.sequencer] ∧ s.seq = .busy 0x00000006 ∧ s.ksValid = true :=
  ⟨{ cbcState with seq := .busy 0x00000006, turns := [.reset, .sequencer] }, by decide +kernel⟩

/-- A state in the middle of ENC_BLOCK with a schedule loaded meets the invariant. -/
theorem loaded_inv : ({ cbcState with seq := .busy 0x00000002, done := false } : State).Inv where
  params := by decide
  latched := by intro w h; cases h; decide
  inProgress := by decide +kernel
  code := by decide +kernel
  detail := by decide +kernel
  rounds := by decide +kernel
  unusedKeys := by decide +kernel
  outLen := by decide +kernel
  dinForm := by decide +kernel
  doutForm := by decide +kernel
  dinRange := by decide +kernel
  doutRange := by decide +kernel

theorem witness_StepKeepsTheInvariant : ∃ s t : State, s.Inv ∧ s.busy = true ∧ step s = .next t :=
  ⟨_, _, loaded_inv, by decide +kernel, rfl⟩

theorem witness_InvariantRulesOutFaults : ∃ s : State, s.Inv ∧ s.seq = .busy 0x00000002 :=
  ⟨_, loaded_inv, rfl⟩

/-! ## Witnesses: the bus -/

/-- Another width, and a misaligned address, at both ends of the aperture. -/
theorem witness_WrongWidthOrMisalignedAccessHasNoEffect :
    start.params.wf = true ∧
    (∀ p ∈ [(0x40000, 1), (0x40001, 4), (0x7FFFF, 4), (0x7FFFC, 8)], start.params.base ≤ p.1 ∧
      p.1 < start.params.base + 0x40000 ∧ (p.2 ≠ 4 ∨ (p.1 - start.params.base) % 4 ≠ 0)) ∧
    (∃ s : State, s.turns = .host (.read 0x40001 4) :: []) ∧ (∃ s : State, s.turns = .host (.write 0x40000 1 5) :: []) :=
  ⟨by decide, by decide, ⟨{ start with turns := [.host (.read 0x40001 4)] }, rfl⟩,
    ⟨{ start with turns := [.host (.write 0x40000 1 5)] }, rfl⟩⟩

/-- The addresses on either side of the aperture. -/
theorem witness_AccessOutsideTheApertureIsRefused :
    (0x3FFFC < start.params.base ∨ start.params.base + 0x40000 ≤ 0x3FFFC) ∧
    (0x80000 < start.params.base ∨ start.params.base + 0x40000 ≤ 0x80000) ∧
    (∃ s : State, s.params = start.params ∧ s.turns = .host (.read 0x3FFFC 4) :: []) ∧
    (∃ s : State, s.params = start.params ∧ s.turns = .host (.write 0x80000 4 0) :: []) :=
  ⟨by decide, by decide, ⟨{ start with turns := [.host (.read 0x3FFFC 4)] }, by decide⟩,
    ⟨{ start with turns := [.host (.write 0x80000 4 0)] }, by decide⟩⟩

/-- The first and the last aligned offset, read and written, busy and idle. -/
theorem witness_AlignedAccessIsOneStep :
    (∃ s : State, s.turns = readTurn s 0x3FFFC :: [] ∧ 0x3FFFC % 4 = 0 ∧ 0x3FFFC < 0x40000) ∧
    (∃ s : State, s.turns = writeTurn s 0x000 7 :: [] ∧ s.busy = true) :=
  ⟨⟨{ start with turns := [readTurn start 0x3FFFC] }, by decide⟩,
    ⟨{ start with turns := [writeTurn start 0x000 7], seq := .busy 1 }, by decide⟩⟩

theorem witness_ReadsHaveNoSideEffects :
    ∃ s : State, s.params.base ≤ 0x40008 ∧ 0x40008 < s.params.base + 0x40000 ∧
      s.turns = .host (.read 0x40008 4) :: .host (.read 0x40008 4) :: [] :=
  ⟨{ start with turns := [.host (.read 0x40008 4), .host (.read 0x40008 4)] }, by decide⟩

/-- The first and the last aligned offset of every line of the map (R101), at the smallest and the largest
DIN_BYTES. -/
theorem witness_OffsetsNameWhatTheMapLists :
    Params.wf ⟨0, 64⟩ = true ∧ Params.wf ⟨0, 65472⟩ = true ∧
    [0x000, 0x020, 0x024, 0x03C, 0x040, 0x05C, 0x060, 0x06C, 0x070, 0x080, 0x09C, 0x0A0, 0x0B0, 0x0BC, 0x0C0,
      0x0D0, 0x0E0, 0x0EC, 0x0F0, 0xFFFC, 0x10000, 0x1003C, 0x10040, 0x1FFFC].map (targetAt ⟨0, 64⟩) =
    [.register .id, .register .info, .reserved, .reserved, .window .key 0, .window .key 28, .window .iv 0,
      .window .iv 12, .window .salt 0, .window .tag 0, .window .tag 28, .window .blockIn 0,
      .window .blockOut 0, .window .blockOut 12, .window .dkCk 0, .window .dkAk 0, .window .dkIv 0,
      .window .dkIv 12, .reserved, .reserved, .window .din 0, .window .din 60, .reserved, .reserved] ∧
    [0x1FFBC, 0x1FFC0, 0x20000, 0x2FFFC, 0x30000, 0x3FFFC].map (targetAt ⟨0, 65472⟩) =
      [.window .din 65468, .reserved, .window .dout 0, .window .dout 65532, .reserved, .reserved] := by
  decide +kernel

/-- An idle state, and the reserved offsets at the edges of their ranges. -/
theorem witness_IdleRegisterAccesses :
    start.seq = .idle ∧ ∀ off ∈ [0x024, 0x03C, 0x0F0, 0xFFFC, 0x11000, 0x1FFFC, 0x21040, 0x3FFFC],
      targetAt start.params off = .reserved := by decide +kernel

/-- The last word of the smallest and of the largest window, read and written. -/
theorem witness_WindowWordsAreLittleEndian :
    start.seq = .idle ∧ start.params.wf = true ∧ 4 * 3 < Window.iv.size start.params ∧
    4 * 1023 < Window.din.size start.params ∧ 4 * 1039 < Window.dout.size start.params ∧
    4 * 7 < Window.key.size start.params := by decide +kernel

/-- A window that takes a write and a window that ignores one, and bytes on either side of the word. -/
theorem witness_WindowWriteChangesFourBytes :
    start.seq = .idle ∧ start.params.wf = true ∧ 4 * 1 < Window.salt.size start.params ∧
    (3 < 4 * 1 ∨ 4 * 1 + 3 < 3) ∧ (8 < 4 * 1 ∨ 4 * 1 + 3 < 8) ∧ Window.iv ≠ Window.salt ∧
    4 * 0 < Window.dout.size start.params ∧ 4 * 3 < Window.blockOut.size start.params := by decide +kernel

/-- A busy state with a pending read, at the three offsets that read and at one that does not. -/
theorem witness_BusyReadsShowIdStatusAndIe :
    ∀ off ∈ [0x000, 0x004, 0x008, 0x00C, 0x3FFFC], ∃ s : State, s.seq = .busy 0x00000001 ∧ off % 4 = 0 ∧
      off < 0x40000 ∧ s.turns = readTurn s off :: [] := by
  intro off h
  exact ⟨{ start with seq := .busy 0x00000001, turns := [readTurn start off] }, rfl,
    by revert off; decide, by revert off; decide, rfl⟩

theorem witness_BusyWritesAreDropped :
    ∀ off ∈ [0x000, 0x004, 0x008, 0x00C, 0x3FFFC], ∃ s : State, s.seq = .busy 0x00000001 ∧ off % 4 = 0 ∧
      off < 0x40000 ∧ s.turns = writeTurn s off 0xFFFFFFFF :: [] := by
  intro off h
  exact ⟨{ start with seq := .busy 0x00000001, turns := [writeTurn start off 0xFFFFFFFF] }, rfl,
    by revert off; decide, by revert off; decide, rfl⟩

/-- A dropped write, and BWERR kept by a step, and BWERR cleared by a write to STATUS. -/
theorem witness_BwerrIsSticky :
    (∃ s t : State, step s = .next t ∧ s.busy = true ∧ s.turns = writeTurn s 0x010 5 :: [] ∧ t.bwerr = true) ∧
    (∃ s t : State, step s = .next t ∧ s.bwerr = true ∧ s.turns = [] ∧ t.bwerr = true) ∧
    (∃ s t : State, step s = .next t ∧ s.bwerr = true ∧ s.turns = writeTurn s 0x008 0x8 :: [] ∧
      t.bwerr = false) :=
  ⟨⟨{ start with seq := .busy 1, turns := [writeTurn start 0x010 5] }, _, rfl, by decide, by decide,
      by decide +kernel⟩,
    ⟨{ start with bwerr := true }, _, rfl, by decide, by decide, by decide +kernel⟩,
    ⟨{ start with bwerr := true, turns := [writeTurn start 0x008 0x8] }, _, rfl, by decide, by decide,
      by decide +kernel⟩⟩

/-- KEY_EXPAND sets KS_VALID, an AE command clears it, and so does a reset. -/
theorem witness_KsValidChangesOnlyByKeyExpandAeAndReset :
    (∃ s t : State, step s = .next t ∧ s.ksValid = false ∧ t.ksValid = true) ∧
    (∃ s t : State, step s = .next t ∧ s.seq = .busy 0x0000000A ∧ s.ksValid = true ∧ t.ksValid = false) ∧
    (∃ s t : State, step s = .next t ∧ s.turns = .reset :: [] ∧ s.ksValid = true ∧ t.ksValid = false) :=
  ⟨⟨{ start with seq := .busy 0x00000001, keyLen := 32 }, _, rfl, by decide, by decide +kernel⟩,
    ⟨{ start with seq := .busy 0x0000000A, ksValid := true }, _, rfl, by decide, by decide, by decide +kernel⟩,
    ⟨{ start with ksValid := true, turns := [.reset] }, _, rfl, by decide, by decide, by decide +kernel⟩⟩

theorem witness_HostReadsDoNotRevealKeyOrSchedule :
    ∃ (s : State) (r : Reply), s.turns = .host (.read 0x40040 4) :: [] ∧ step s = .next (replied s [] r) :=
  ⟨{ aeState with turns := [.host (.read 0x40040 4)] }, .read .okay 0, rfl, rfl⟩

/-! ## Witnesses: the commands -/

/-- KEY_LEN of 0, of the illegal lengths beside a legal one, and of the three legal ones; and the first and the
last step of the round constants. -/
theorem witness_KeyExpandLoadsTheSchedule :
    ({ start with keyLen := 0 } : State).keyLen = 0 ∧
    (∀ n ∈ ([1, 15, 17, 31, 33, 0xFFFFFFFF] : List Nat),
      ({ start with keyLen := BitVec.ofNat 32 n } : State).keyLen ≠ 0 ∧
      ¬ KeyLenValid { start with keyLen := BitVec.ofNat 32 n }) ∧
    (∀ n ∈ ([16, 24, 32] : List Nat), KeyLenValid { start with keyLen := BitVec.ofNat 32 n }) ∧
    (1 ≤ 1 ∧ 1 < 10) ∧ 1 ≤ 9 ∧ 9 < 10 := by
  unfold KeyLenValid; decide +kernel

/-- A round-key word of the last matrix, in the corner row and column. -/
theorem witness_RoundPrimitivesByEntry :
    3 < 4 ∧ ∃ w, cbcState.rk[4 * 14 + 3]? = some w := ⟨by decide, _, rfl⟩

/-- No schedule, and the schedules of the three round counts. -/
theorem witness_BlockCommandsRunTheEngine :
    start.ksValid = false ∧
    (let s := loaded 16 0x00 start; s.ksValid = true ∧ s.nr = 10) ∧
    (let s := loaded 24 0x00 start; s.ksValid = true ∧ s.nr = 12) ∧
    (let s := loaded 32 0x00 start; s.ksValid = true ∧ s.nr = 14) := by decide +kernel

theorem witness_DecBlockUndoesEncBlock :
    ∃ t, cbcState.ksValid = true ∧ exec .encBlock cbcState = .next t ∧ t.errCode = 0 :=
  ⟨_, by decide +kernel, rfl, by decide +kernel⟩

/-- A string of one block with a valid padding, and one without. -/
theorem witness_UnpadAcceptsExactlyValidPadding :
    let m : List Byte := bytes 16 0x0404040404040404040404_0504040404
    0 < m.length ∧ m.length % 16 = 0 ∧ PaddingValid (fun k => m.getD k 0) m.length ∧
      ¬ PaddingValid (fun k => (m.take 15 ++ [0x06]).getD k 0) m.length := by
  unfold PaddingValid; decide +kernel

/-- Without a schedule; too long by one; and the longest message, of DIN_BYTES bytes. -/
theorem witness_CbcEncChainsPaddedBlocks :
    start.params.wf = true ∧ start.ksValid = false ∧ cbcState.ksValid = true ∧ cbcState.params.wf = true ∧
    ¬ MessageFits { cbcState with msgLen := 4097 } ∧ MessageFits { cbcState with msgLen := 4096 } := by
  unfold MessageFits; decide +kernel

/-- The lengths 0, 15 and 17 (7/3), the first row of V-CBC-6 (p = 0) and the second of V-CBC-7 (p = 1). -/
theorem witness_CbcDecRemovesValidPadding :
    (∀ n ∈ ([0, 15, 17] : List Nat), let s := { cbcState with msgLen := BitVec.ofNat 32 n }
      MessageFits s ∧ (s.msgLen.toNat = 0 ∨ s.msgLen.toNat % 16 ≠ 0)) ∧
    (let s := withMessage (bytes 16 0x50fe67cc996d32b6da0937e99bafec60) cbcState;
      s.ksValid = true ∧ MessageFits s ∧ 0 < s.msgLen.toNat ∧ s.msgLen.toNat % 16 = 0 ∧
        ¬ PaddingValid (rawPlainByte s (invCipher s.rk s.nr.toNat) s.iv 0) s.msgLen.toNat) ∧
    (let s := withMessage (bytes 16 0x922b71050f93d8ccf60143200fdb8881) cbcState;
      s.ksValid = true ∧ MessageFits s ∧ 0 < s.msgLen.toNat ∧ s.msgLen.toNat % 16 = 0 ∧
        PaddingValid (rawPlainByte s (invCipher s.rk s.nr.toNat) s.iv 0) s.msgLen.toNat) := by
  unfold MessageFits PaddingValid; decide +kernel

/-- The message "hello world", its ciphertext copied from DOUT to DIN. -/
theorem witness_CbcDecUndoesCbcEnc :
    let s := withMessage hello cbcState
    let t := after .cbcEnc s
    let u := { s with din := t.dout, msgLen := t.outLen }
    s.params.wf = true ∧ s.ksValid = true ∧ MessageFits s ∧ exec .cbcEnc s = .next t ∧ u.params = s.params ∧
      u.rk = s.rk ∧ u.nr = s.nr ∧ u.ksValid = true ∧ u.iv = s.iv ∧ u.msgLen = t.outLen ∧ MessageFits u ∧
      ∀ k < t.outLen.toNat, u.windowByte .din k = t.windowByte .dout k :=
  ⟨by decide, by decide +kernel, by unfold MessageFits; decide +kernel, exec_after _ _, rfl, rfl, rfl,
    by decide +kernel, rfl, rfl, by unfold MessageFits; decide +kernel, by decide +kernel⟩

/-- Two ciphertexts of three blocks that differ in block 1 alone. -/
theorem witness_CbcErrorPropagation :
    ∃ x x' : List Block, x.length = x'.length ∧ (∀ k, k ≠ 1 → x[k]? = x'[k]?) ∧ x[1]? ≠ x'[1]? := by
  have h : ∀ a b b' d : Block, b ≠ b' →
      [a, b, d].length = [a, b', d].length ∧ (∀ k, k ≠ 1 → [a, b, d][k]? = [a, b', d][k]?) ∧
        [a, b, d][1]? ≠ [a, b', d][1]? := by
    intro a b b' d hb
    refine ⟨rfl, ?_, by simpa using hb⟩
    rintro (_ | _ | k) hk <;> simp_all
  exact ⟨_, _, h (block 0) (block 1) (block 2) (block 3) (by decide +kernel)⟩

theorem witness_ShaPaddingFillsWholeBlocks : ([] : List Byte).length < 2 ^ 61 ∧ (bytes 64 0).length < 2 ^ 61 := by
  decide +kernel

/-- Keys of 64 and of 65 bytes. -/
theorem witness_HmacIsTheNestedHash : (bytes 64 0).length ≤ 64 ∧ 64 < (bytes 65 0).length := by decide +kernel

/-- KEY_LEN 33; KEY_LEN 32 with ITER 0; and the empty password with ITER 1. -/
theorem witness_KdfWritesTheDerivedKeys :
    32 < ({ start with keyLen := 33 } : State).keyLen.toNat ∧
    (let s := { start with keyLen := 32, iter := 0 }; s.keyLen.toNat ≤ 32 ∧ s.iter = 0) ∧
    (let s := { start with keyLen := 0, iter := 1 }; s.keyLen.toNat ≤ 32 ∧ s.iter ≠ 0) := by decide +kernel

/-- Too long by one; a right tag (V-MAC-2); and a wrong tag (V-MAC-3b). -/
theorem witness_TagCommandsComputeAndCompareTheHmac :
    ¬ MessageFits { start with msgLen := 4097 } ∧
    (let s := macState (bytes 16 0x513641f747affe9d52161cf9322a39d8);
      let expected := hmac (windowBytes s .dkAk 0 16) (windowBytes s .salt 0 16 ++ message s);
      MessageFits s ∧ digest 0xa9295ddef9c32985ccd4d93f9bc00ed3792fd992053247a7af4c83dcc5832abc = expected ∧
        digest 0xa8295ddef9c32985ccd4d93f9bc00ed3792fd992053247a7af4c83dcc5832abc ≠ expected) := by
  unfold MessageFits; decide +kernel

/-- One state for each failing step of R561. -/
theorem witness_AeEncryptValidationOrder :
    let ascii (s : State) : Prop := ∀ k < s.msgLen.toNat, (s.windowByte .din k).toNat ≤ 0x7F
    start.keyLen = 0 ∧
    (let s := { start with keyLen := 17 }; s.keyLen ≠ 0 ∧ ¬ KeyLenValid s) ∧
    (let s := { start with keyLen := 24 }; KeyLenValid s ∧ s.msgLen = 0) ∧
    (let s := { start with keyLen := 32, msgLen := 4097 }; KeyLenValid s ∧ s.msgLen ≠ 0 ∧ ¬ MessageFits s) ∧
    (let s := withMessage [0x80] aeState; KeyLenValid s ∧ s.msgLen ≠ 0 ∧ MessageFits s ∧ ¬ ascii s) ∧
    (let s := withMessage [0x7F] { aeState with iter := 0 };
      KeyLenValid s ∧ s.msgLen ≠ 0 ∧ MessageFits s ∧ ascii s ∧ s.iter = 0) := by
  unfold KeyLenValid MessageFits; decide +kernel

/-- One state for each failing step of R564, the lengths 48, 63 and 65 for its step 5. -/
theorem witness_AeDecryptValidationOrder :
    start.keyLen = 0 ∧
    (let s := { start with keyLen := 15 }; s.keyLen ≠ 0 ∧ ¬ KeyLenValid s) ∧
    (let s := { start with keyLen := 16 }; KeyLenValid s ∧ s.msgLen = 0) ∧
    (let s := { start with keyLen := 16, msgLen := 4112 }; KeyLenValid s ∧ s.msgLen ≠ 0 ∧ ¬ MessageFits s) ∧
    (∀ n ∈ ([48, 63, 65] : List Nat), let s := { start with keyLen := 16, msgLen := BitVec.ofNat 32 n }
      KeyLenValid s ∧ s.msgLen ≠ 0 ∧ MessageFits s ∧ (s.msgLen.toNat % 16 ≠ 0 ∨ s.msgLen.toNat < 64)) ∧
    (let s := { start with keyLen := 16, msgLen := 64, iter := 0 };
      KeyLenValid s ∧ MessageFits s ∧ s.msgLen.toNat % 16 = 0 ∧ 64 ≤ s.msgLen.toNat ∧ s.iter = 0) := by
  unfold KeyLenValid MessageFits; decide +kernel

theorem hello_encryptPasses : EncryptPasses (withMessage hello aeState) := by
  unfold EncryptPasses KeyLenValid MessageFits; decide +kernel

theorem witness_AeEncryptBuildsTheWireBlob :
    ∃ s : State, s.params.wf = true ∧ EncryptPasses s := ⟨_, by decide, hello_encryptPasses⟩

theorem blob_decryptPasses : DecryptPasses (withMessage helloBlob aeState) := by
  unfold DecryptPasses KeyLenValid MessageFits; decide +kernel

/-- A wrong tag; V-AE-11's first row, whose tag is right and whose padding is not; and V-AE-1's blob. -/
theorem witness_AeDecryptAuthenticatesThenDecrypts :
    let derived (s : State) := derivedKeys (password s) (windowBytes s .din 32 16) s.iter.toNat
    let tagRight (s : State) : Prop := windowBytes s .din 0 32 =
      (hmac (derived s).ak.toList (windowBytes s .din 32 16 ++
        windowBytes s .din 48 (s.msgLen.toNat - 48))).toList
    let q (s : State) := rawPlainByte s (invCipher (schedule (derived s).ck) 10) (derived s).iv 48
    (let s := withMessage (bytes 64 1) aeState; s.params.wf = true ∧ DecryptPasses s ∧ ¬ tagRight s) ∧
    (let s := withMessage (bytes 32 0x3d5a791e73d2a73510df6f61a0c37ff4654d2d75289cc14104a414f73a5ec431 ++
        bytes 32 0x000102030405060708090a0b0c0d0e0fe74aeffebd367945b9eb34fc828f7120) aeState;
      s.params.wf = true ∧ DecryptPasses s ∧ tagRight s ∧ ¬ PaddingValid (q s) (s.msgLen.toNat - 48)) ∧
    (let s := withMessage helloBlob aeState;
      s.params.wf = true ∧ DecryptPasses s ∧ tagRight s ∧ PaddingValid (q s) (s.msgLen.toNat - 48)) := by
  unfold DecryptPasses KeyLenValid MessageFits PaddingValid; decide +kernel

theorem witness_AeCommandsClearTheSchedule :
    ∃ t u, exec .aeDecrypt cbcState = .next t ∧ exec .encBlock t = .next u := ⟨_, _, rfl, rfl⟩

/-- V-AE-1: "hello world" encrypted, its blob copied to DIN. -/
theorem witness_AeDecryptUndoesAeEncrypt :
    let s := withMessage hello aeState
    let t := after (.aeEncrypt true) s
    let u := { s with din := t.dout, msgLen := t.outLen }
    s.params.wf = true ∧ EncryptPasses s ∧ exec (.aeEncrypt true) s = .next t ∧ u.params = s.params ∧
      u.keyLen = s.keyLen ∧ (∀ k < s.keyLen.toNat, u.windowByte .key k = s.windowByte .key k) ∧
      u.iter = s.iter ∧ u.msgLen = t.outLen ∧ MessageFits u ∧
      ∀ k < t.outLen.toNat, u.windowByte .din k = t.windowByte .dout k :=
  ⟨by decide, hello_encryptPasses, exec_after _ _, rfl, rfl, fun _ _ => rfl, rfl, rfl,
    by unfold MessageFits; decide +kernel, by decide +kernel⟩

/-- V-AE-5: V-AE-1's blob, and the same blob with bit 0 of byte 0 flipped. -/
theorem witness_TamperedTagIsRejected :
    let s := withMessage helloBlob aeState
    let u := withMessage (0xa8 :: helloBlob.drop 1) aeState
    exec .aeDecrypt s = .next (after .aeDecrypt s) ∧ (after .aeDecrypt s).errCode = 0 ∧ u.params = s.params ∧
      u.keyLen = s.keyLen ∧ (∀ k < s.keyLen.toNat, u.windowByte .key k = s.windowByte .key k) ∧
      u.iter = s.iter ∧ u.msgLen = s.msgLen ∧
      (∀ k, 32 ≤ k → k < s.msgLen.toNat → u.windowByte .din k = s.windowByte .din k) ∧
      ∃ k, k < 32 ∧ u.windowByte .din k ≠ s.windowByte .din k :=
  ⟨exec_after _ _, by decide +kernel, rfl, rfl, fun _ _ => rfl, rfl, by decide +kernel, by decide +kernel,
    0, by decide, by decide +kernel⟩

/-- The composition of R570 on "hello world" (program P3): the host copies DK_CK to KEY, DK_IV to IV and the
ciphertext to DIN. -/
theorem witness_AeEncryptIsTheCompositionOfPrimitives :
    let s := withMessage hello aeState
    let a := after .kdf s
    let a' := { a with key := firstBytes 32 a.dkCk.toList, keyLen := 16 }
    let b := after .keyExpand a'
    let b' := { b with iv := b.dkIv }
    let c := after .cbcEnc b'
    let c' := { c with din := c.dout, msgLen := c.outLen }
    s.params.wf = true ∧ EncryptPasses s ∧ exec .kdf s = .next a ∧
      (∀ k < 16, a'.windowByte .key k = a.windowByte .dkCk k) ∧ exec .keyExpand a' = .next b ∧
      exec .cbcEnc b' = .next c ∧ (∀ k < c.outLen.toNat, c'.windowByte .din k = c.windowByte .dout k) ∧
      MessageFits c' ∧ exec .tagCompute c' = .next (after .tagCompute c') ∧
      exec (.aeEncrypt true) s = .next (after (.aeEncrypt true) s) :=
  ⟨by decide, hello_encryptPasses, exec_after _ _, by decide +kernel, exec_after _ _, exec_after _ _,
    by decide +kernel, by unfold MessageFits; decide +kernel, exec_after _ _, exec_after _ _⟩

/-- A state of every command's word, latched: the step runs it (R305). -/
theorem test_every_word_steps :
    ([1, 2, 3, 4, 5, 6, 7, 8, 9, 0x109, 10].all fun w =>
      match step (State.reset.withFetchWord 32 w) with
      | .next _ => true
      | _ => false) = true := by decide

end Sys2Proof.Tests
end

section
/-! The host's view of STATUS and IE (10_state.md R104, R111): what a read and a write at their offsets do, idle or
busy, and where each flag and field stands in the words. -/

namespace Sys2Proof.Machine

/-! ## Accesses that act alike idle and busy (R209 to R211) -/

theorem State.readWord_of_idle_of_busy {s : State} {off : Nat} {w : Word}
    (hidle : s.readIdle (targetAt s.params off) = w) (hbusy : s.readBusy (targetAt s.params off) = w) :
    s.readWord off = w := by
  unfold State.readWord
  cases s.seq with
  | idle => exact hidle
  | busy _ => exact hbusy

theorem State.writeWord_of_idle_of_busy {s t : State} {off : Nat} {v : Word}
    (hidle : s.writeIdle (targetAt s.params off) v = t) (hbusy : s.writeBusy (targetAt s.params off) v = t) :
    s.writeWord off v = t := by
  unfold State.writeWord
  cases s.seq with
  | idle => exact hidle
  | busy _ => exact hbusy

@[simp] theorem State.readWord_status (s : State) : s.readWord 0x008 = s.statusWord :=
  State.readWord_of_idle_of_busy rfl rfl

@[simp] theorem State.readWord_ie (s : State) : s.readWord 0x00C = s.ieWord :=
  State.readWord_of_idle_of_busy rfl rfl

@[simp] theorem State.writeWord_status (s : State) (v : Word) : s.writeWord 0x008 v = s.acknowledge v :=
  State.writeWord_of_idle_of_busy rfl rfl

@[simp] theorem State.writeWord_ie (s : State) (v : Word) : s.writeWord 0x00C v = s.setIe v :=
  State.writeWord_of_idle_of_busy rfl rfl

/-! ## STATUS (R104) -/

/-- Each flag of a write to STATUS is write-1-to-clear. -/
theorem State.acknowledge_eq_ite (s : State) (v : Word) :
    s.acknowledge v =
      { s with done := (if v.getLsbD 1 then false else s.done),
               bwerr := (if v.getLsbD 3 then false else s.bwerr) } := by
  have clear (flag bit : Bool) : (flag && !bit) = if bit then false else flag := by cases bit <;> simp
  simp only [State.acknowledge, clear]

/-- Bit i of STATUS. The proof first gives the word its width as the sum of its fields' widths, the form in which
`BitVec.getLsbD_append` finds the field bit i falls into. -/
theorem State.statusWord_getLsbD (s : State) (i : Nat) :
    s.statusWord.getLsbD i =
      if i < 1 then s.busy else if i < 2 then s.done else if i < 3 then s.ksValid else if i < 4 then s.bwerr
      else if i < 8 then false else if i < 12 then s.errCode.getLsbD (i - 8)
      else if i < 16 then s.errDetail.getLsbD (i - 12) else false := by
  have sub_lt (a b : Nat) (hb : 0 < b) : i - a < b ↔ i < a + b := by omega
  change BitVec.getLsbD (_ ++ _ ++ _ ++ _ ++ _ ++ _ ++ _ ++ _ : BitVec (16 + 4 + 4 + 4 + 1 + 1 + 1 + 1)) i = _
  iterate 7 rw [BitVec.getLsbD_append]
  simp only [BitVec.getLsbD_ofBool, BitVec.getLsbD_zero, Nat.sub_sub, sub_lt, Nat.reduceAdd, Nat.zero_lt_succ]
  split_ifs <;> grind

theorem State.statusWord_flags (s : State) :
    s.statusWord.getLsbD 0 = s.busy ∧ s.statusWord.getLsbD 1 = s.done ∧
      s.statusWord.getLsbD 2 = s.ksValid ∧ s.statusWord.getLsbD 3 = s.bwerr :=
  ⟨s.statusWord_getLsbD 0, s.statusWord_getLsbD 1, s.statusWord_getLsbD 2, s.statusWord_getLsbD 3⟩

/-- The fields of STATUS wider than a bit: 0 in [7:4], ERR_CODE, ERR_DETAIL, 0 in [31:16]. -/
theorem State.statusWord_fields (s : State) :
    s.statusWord.extractLsb' 4 4 = 0 ∧ s.statusWord.extractLsb' 8 4 = s.errCode ∧
      s.statusWord.extractLsb' 12 4 = s.errDetail ∧ s.statusWord.extractLsb' 16 16 = 0 := by
  refine ⟨?_, ?_, ?_, ?_⟩ <;> ext i hi <;> rw [BitVec.getElem_extractLsb', State.statusWord_getLsbD] <;> grind

/-! ## IE and IRQ (R111, R134) -/

/-- Bit i of IE. -/
theorem State.ieWord_getLsbD (s : State) (i : Nat) :
    s.ieWord.getLsbD i = if i < 1 then s.doneIe else if i < 2 then s.bwerrIe else false := by
  change BitVec.getLsbD (_ ++ _ ++ _ : BitVec (30 + 1 + 1)) i = _
  rw [BitVec.getLsbD_append, BitVec.getLsbD_append]
  simp only [BitVec.getLsbD_ofBool, BitVec.getLsbD_zero]
  grind

theorem State.ieWord_flags (s : State) : s.ieWord.getLsbD 0 = s.doneIe ∧ s.ieWord.getLsbD 1 = s.bwerrIe :=
  ⟨s.ieWord_getLsbD 0, s.ieWord_getLsbD 1⟩

theorem State.ieWord_reserved (s : State) : s.ieWord.extractLsb' 2 30 = 0 := by
  ext i hi
  rw [BitVec.getElem_extractLsb', State.ieWord_getLsbD, if_neg (by omega), if_neg (by omega), BitVec.ofNat_eq_ofNat,
    BitVec.getElem_zero]

/-- The IRQ level as the host works it out from the words STATUS and IE show. -/
theorem State.irq_eq_statusWord_ieWord (s : State) :
    s.irq = ((s.statusWord.getLsbD 1 && s.ieWord.getLsbD 0) || (s.statusWord.getLsbD 3 && s.ieWord.getLsbD 1)) := by
  obtain ⟨-, hdone, -, hbwerr⟩ := s.statusWord_flags
  obtain ⟨hdoneIe, hbwerrIe⟩ := s.ieWord_flags
  rw [hdone, hbwerr, hdoneIe, hbwerrIe]
  rfl

end Sys2Proof.Machine

/-- Settles O26: idle and busy reach the same STATUS word and the same acknowledgement, and the layout of the word
gives its bits. -/
theorem statusFieldsAndWriteOneToClear : Obligations.StatusFieldsAndWriteOneToClear := by
  intro s v
  obtain ⟨hbusy, hdone, hksValid, hbwerr⟩ := s.statusWord_flags
  exact ⟨⟨s.readWord_status, hbusy, hdone, hksValid, hbwerr, s.statusWord_fields⟩,
    (s.writeWord_status v).trans (s.acknowledge_eq_ite v), by decide⟩

/-- Settles O27: idle and busy reach the same IE word and the same `setIe`, and the flags of the two words give
the IRQ level. -/
theorem interruptEnableAndLevel : Obligations.InterruptEnableAndLevel := by
  intro s v
  obtain ⟨hdoneIe, hbwerrIe⟩ := s.ieWord_flags
  exact ⟨⟨s.readWord_ie, hdoneIe, hbwerrIe, s.ieWord_reserved, s.writeWord_ie v⟩, by decide,
    s.irq_eq_statusWord_ieWord, by decide⟩

end

section
/-! Host accesses to the aperture (20_memory.md R201 to R213): which accesses are performed, what a refused-by-width,
an idle and a busy access do, and what a window's words hold. -/

namespace Sys2Proof.Machine

open Sys2Proof.Spec

/-! ## Which accesses are performed (R201 to R204) -/

theorem Access.inAperture_iff (p : Params) (a : Access) :
    a.inAperture p = true ↔ p.base ≤ a.addr ∧ a.addr < p.base + 0x40000 := by
  rw [Access.inAperture, Bool.and_eq_true, decide_eq_true_iff, decide_eq_true_iff, apertureBytes]

theorem Access.performed_iff (p : Params) (a : Access) :
    a.performed p = true ↔ a.bytes = 4 ∧ (a.addr - p.base) % 4 = 0 := by
  simp only [Access.performed, Bool.and_eq_true, beq_iff_eq]

theorem Access.performed_eq_false_iff (p : Params) (a : Access) :
    a.performed p = false ↔ a.bytes ≠ 4 ∨ (a.addr - p.base) % 4 ≠ 0 := by
  rw [← Bool.not_eq_true, Access.performed_iff, not_and_or]

/-- A 32-bit access at an aligned offset reaches AES-CORE and is performed (R201, R202). -/
theorem Access.performed_of_aligned {p : Params} {a : Access} {off : Nat} (halign : off % 4 = 0)
    (hoff : off < 0x40000) (haddr : a.addr = p.base + off) (hbytes : a.bytes = 4) :
    a.inAperture p = true ∧ a.performed p = true := by
  rw [Access.inAperture_iff, Access.performed_iff, haddr, Nat.add_sub_cancel_left]
  exact ⟨⟨Nat.le_add_right .., Nat.add_lt_add_left hoff _⟩, hbytes, halign⟩

/-- An access of another width, or misaligned, takes its turn and gets ERROR (R203, R204). -/
theorem step_host_not_performed {s : State} {rest : List Turn} {a : Access} (hturns : s.turns = .host a :: rest)
    (hin : a.inAperture s.params = true) (hperf : a.performed s.params = false) :
    step s = .next (replied s rest a.errorReply) := by
  rw [step_host hturns, if_neg (by simp [hin]), if_pos hperf]
  rfl

/-- The reply to a read in the aperture: the word read, or ERROR with data 0 (R203, R204, R209, R210). -/
def State.readReply (s : State) (addr n : Nat) : Reply :=
  if (Access.read addr n).performed s.params then .read .okay (s.readWord (addr - s.params.base))
  else (Access.read addr n).errorReply

/-- A read in the aperture, of any width at any address, takes its turn and gets its reply, and that is all (R212). -/
theorem step_read {s : State} {rest : List Turn} {addr n : Nat} (hturns : s.turns = .host (.read addr n) :: rest)
    (hin : (Access.read addr n).inAperture s.params = true) :
    step s = .next (replied s rest (s.readReply addr n)) := by
  cases hperf : (Access.read addr n).performed s.params with
  | false => rw [step_host_not_performed hturns hin hperf, State.readReply, if_neg (by simp [hperf])]
  | true =>
    rw [step_host hturns, if_neg (by simp [hin]), if_neg (by simp [hperf]), State.readReply, if_pos hperf]
    rfl

/-- The reply to a read does not depend on the turns and the reply the state holds. -/
theorem State.readReply_replied (s : State) (rest : List Turn) (r : Reply) (addr n : Nat) :
    (replied s rest r).readReply addr n = s.readReply addr n := rfl

/-- A host read of 32 bits at an aligned offset replies OKAY with the word (R202). -/
theorem step_readTurn {s : State} {rest : List Turn} {off : Nat} (halign : off % 4 = 0) (hoff : off < 0x40000)
    (hturns : s.turns = readTurn s off :: rest) :
    step s = .next (replied s rest (.read .okay (s.readWord off))) := by
  obtain ⟨hin, hperf⟩ := Access.performed_of_aligned (a := .read (s.params.base + off) 4) halign hoff rfl rfl
  rw [step_read hturns hin, State.readReply, if_pos hperf, Nat.add_sub_cancel_left]

/-- A host write of 32 bits at an aligned offset acts and replies OKAY (R202). -/
theorem step_writeTurn {s : State} {rest : List Turn} {off : Nat} {v : Word} (halign : off % 4 = 0)
    (hoff : off < 0x40000) (hturns : s.turns = writeTurn s off v :: rest) :
    step s = .next (replied (s.writeWord off v) rest (.write .okay)) := by
  obtain ⟨hin, hperf⟩ := Access.performed_of_aligned (a := .write (s.params.base + off) 4 v) halign hoff rfl rfl
  rw [step_host hturns, if_neg (by simp [hin]), if_neg (by simp [hperf])]
  simp only [Nat.add_sub_cancel_left]
  rfl

/-! ## The registers of the map (R101) -/

/-- The offset of a register (R101). -/
def Register.offset : Register → Nat
  | .id => 0x000
  | .cmd => 0x004
  | .status => 0x008
  | .ie => 0x00C
  | .keyLen => 0x010
  | .msgLen => 0x014
  | .iter => 0x018
  | .outLen => 0x01C
  | .info => 0x020

theorem registerAt_offset (r : Register) : registerAt r.offset = some r := by cases r <;> rfl

theorem offset_of_registerAt {off : Nat} {r : Register} (h : registerAt off = some r) : off = r.offset := by
  unfold registerAt at h
  split at h <;> cases h <;> rfl

/-- An offset names a register exactly when it is that register's offset. -/
theorem targetAt_eq_register_iff (p : Params) (off : Nat) (r : Register) :
    targetAt p off = .register r ↔ off = r.offset := by
  constructor
  · intro h
    unfold targetAt at h
    split at h
    case h_1 q hq =>
      cases h
      exact offset_of_registerAt hq
    case h_2 => split at h <;> cases h
  · rintro rfl
    rw [targetAt, registerAt_offset]

/-! ## Accesses while BUSY (R210, R211) -/

theorem State.readWord_of_busy {s : State} {c : Word} (hs : s.seq = .busy c) (off : Nat) :
    s.readWord off = s.readBusy (targetAt s.params off) := by
  rw [State.readWord, hs]

theorem State.writeWord_of_busy {s : State} {c : Word} (hs : s.seq = .busy c) (off : Nat) (v : Word) :
    s.writeWord off v = s.writeBusy (targetAt s.params off) v := by
  rw [State.writeWord, hs]

theorem State.readBusy_eq_zero (s : State) {t : Target} (hid : t ≠ .register .id) (hstatus : t ≠ .register .status)
    (hie : t ≠ .register .ie) : s.readBusy t = 0 := by
  unfold State.readBusy
  split
  · exact absurd rfl hid
  · exact absurd rfl hstatus
  · exact absurd rfl hie
  · rfl

theorem State.writeBusy_eq_dropped (s : State) {t : Target} (v : Word) (hstatus : t ≠ .register .status)
    (hie : t ≠ .register .ie) : s.writeBusy t v = { s with bwerr := true } := by
  unfold State.writeBusy
  split
  · exact absurd rfl hstatus
  · exact absurd rfl hie
  · rfl

/-- What any offset reads while BUSY. -/
theorem State.readWord_busy {s : State} {c : Word} (hs : s.seq = .busy c) (off : Nat) :
    s.readWord off =
      if off = 0x000 then 0x41455301
      else if off = 0x008 then s.statusWord
      else if off = 0x00C then s.ieWord
      else 0x00000000 := by
  split_ifs with hid hstatus hie
  · subst hid
    exact State.readWord_of_busy hs 0x000
  · rw [hstatus, State.readWord_status]
  · rw [hie, State.readWord_ie]
  · rw [State.readWord_of_busy hs]
    exact s.readBusy_eq_zero (mt (targetAt_eq_register_iff ..).1 hid) (mt (targetAt_eq_register_iff ..).1 hstatus)
      (mt (targetAt_eq_register_iff ..).1 hie)

/-- What a write to any offset does while BUSY. -/
theorem State.writeWord_busy {s : State} {c : Word} (hs : s.seq = .busy c) (off : Nat) (v : Word) :
    s.writeWord off v =
      if off = 0x008 then s.acknowledge v
      else if off = 0x00C then s.setIe v
      else { s with bwerr := true } := by
  split_ifs with hstatus hie
  · rw [hstatus, State.writeWord_status]
  · rw [hie, State.writeWord_ie]
  · rw [State.writeWord_of_busy hs]
    exact s.writeBusy_eq_dropped v (mt (targetAt_eq_register_iff ..).1 hstatus)
      (mt (targetAt_eq_register_iff ..).1 hie)

/-! ## Window words while IDLE (R205, R209) -/

theorem State.readWord_of_idle {s : State} (hs : s.seq = .idle) (off : Nat) :
    s.readWord off = s.readIdle (targetAt s.params off) := by
  rw [State.readWord, hs]

theorem State.writeWord_of_idle {s : State} (hs : s.seq = .idle) (off : Nat) (v : Word) :
    s.writeWord off v = s.writeIdle (targetAt s.params off) v := by
  rw [State.writeWord, hs]

theorem Window.hostReads_of_ne_key {w : Window} (h : w ≠ .key) : w.hostReads = true := by
  cases w with
  | key => exact absurd rfl h
  | _ => rfl

theorem Window.hostWrites_of_ne {w : Window} (hb : w ≠ .blockOut) (hd : w ≠ .dout) : w.hostWrites = true := by
  cases w with
  | blockOut => exact absurd rfl hb
  | dout => exact absurd rfl hd
  | _ => rfl

/-- DIN_BYTES is a multiple of 4, and so is every window's size (R7, R101). -/
theorem Window.size_mod_four {p : Params} (hp : p.wf = true) (w : Window) : w.size p % 4 = 0 := by
  simp only [Params.wf, Bool.and_eq_true, beq_iff_eq] at hp
  obtain ⟨⟨⟨-, hdin⟩, -⟩, -⟩ := hp
  cases w <;> simp only [Window.size, Params.doutBytes] <;> omega

/-- A window that holds the first byte of a word holds the whole word. -/
theorem Window.word_fits {p : Params} (hp : p.wf = true) {w : Window} {j : Nat} (hj : 4 * j < w.size p) :
    4 * j + 3 < w.size p := by
  have := w.size_mod_four hp
  omega

/-- A byte of a window is what its offset names. -/
theorem targetAt_start_add {p : Params} (hp : p.wf = true) {w : Window} {k : Nat} (hk : k < w.size p) :
    targetAt p (w.start + k) = .window w k := by
  rw [targetAt_window hp ((Window.holds_iff ..).2 ⟨Nat.le_add_right .., Nat.add_lt_add_left hk _⟩),
    Nat.add_sub_cancel_left]

section
variable {s : State} {w : Window} {k : Nat} (hs : s.seq = .idle) (hp : s.params.wf = true)
  (hk : k < w.size s.params)
include hs hp hk

theorem State.readWord_window (hw : w ≠ .key) : s.readWord (w.start + k) = s.windowWord w k := by
  rw [State.readWord_of_idle hs, targetAt_start_add hp hk, State.readIdle, if_pos (Window.hostReads_of_ne_key hw)]

theorem State.readWord_key (hw : w = .key) : s.readWord (w.start + k) = 0 := by
  rw [State.readWord_of_idle hs, targetAt_start_add hp hk, hw, State.readIdle_key]

theorem State.writeWord_window (hb : w ≠ .blockOut) (hd : w ≠ .dout) (v : Word) :
    s.writeWord (w.start + k) v = s.setWindowWord w k v := by
  rw [State.writeWord_of_idle hs, targetAt_start_add hp hk, State.writeIdle, if_pos (Window.hostWrites_of_ne hb hd)]

end

/-- Byte lane i of a word just written into a window stands at byte i of the word (R205). -/
theorem State.windowByte_setWindowWord_lane {s : State} {w : Window} {k : Nat} (h : k + 3 < w.size s.params)
    (v : Word) {i : Nat} (hi : i < 4) : (s.setWindowWord w k v).windowByte w (k + i) = lane v i := by
  rw [State.windowByte_setWindowWord _ _ _ _ _ _ h, if_pos ⟨rfl, by omega, by omega⟩, Nat.add_sub_cancel_left]

end Sys2Proof.Machine

open Sys2Proof.Machine Sys2Proof.Spec

/-- Settles O16: neither access is performed, whatever the sequencer is doing. -/
theorem wrongWidthOrMisalignedAccessHasNoEffect : Obligations.WrongWidthOrMisalignedAccessHasNoEffect := by
  intro s rest addr n v _ hlow hhigh hbad
  have no_effect (a : Access) (haddr : a.addr = addr) (hbytes : a.bytes = n) (hturns : s.turns = .host a :: rest) :
      step s = .next (replied s rest a.errorReply) := by
    subst haddr hbytes
    exact step_host_not_performed hturns ((Access.inAperture_iff ..).2 ⟨hlow, hhigh⟩)
      ((Access.performed_eq_false_iff ..).2 hbad)
  exact ⟨no_effect (.read addr n) rfl rfl, no_effect (.write addr n v) rfl rfl⟩

/-- Settles O19: a read's reply does not depend on the two fields that the read before it changed. -/
theorem readsHaveNoSideEffects : Obligations.ReadsHaveNoSideEffects := by
  intro s rest addr n hlow hhigh hturns
  have hin : (Access.read addr n).inAperture s.params = true := (Access.inAperture_iff ..).2 ⟨hlow, hhigh⟩
  refine ⟨s.readReply addr n, step_read hturns hin, (step_read (s := replied s _ _) rfl hin).trans ?_⟩
  rw [State.readReply_replied]
  rfl

/-- Settles O22: an idle access reaches the window's word, whose value is the sum of its byte lanes. -/
theorem windowWordsAreLittleEndian : Obligations.WindowWordsAreLittleEndian := by
  intro s w j v hs hp hj
  refine ⟨fun hw => ?_, State.readWord_key hs hp hj, fun hb hd i hi => ?_⟩
  · rw [State.readWord_window hs hp hj hw, State.windowWord, toNat_packLE]
  · rw [State.writeWord_window hs hp hj hb hd, State.windowByte_setWindowWord_lane (Window.word_fits hp hj) v hi]
    rfl

/-- Settles O24: a busy read answers by its offset alone. -/
theorem busyReadsShowIdStatusAndIe : Obligations.BusyReadsShowIdStatusAndIe := by
  intro s rest c off hs halign hoff hturns
  rw [step_readTurn halign hoff hturns, State.readWord_busy hs]

/-- Settles O25: a busy write acts on STATUS and IE and is dropped everywhere else. -/
theorem busyWritesAreDropped : Obligations.BusyWritesAreDropped := by
  intro s rest c v off hs halign hoff hturns
  rw [step_writeTurn halign hoff hturns, State.writeWord_busy hs]
  rfl

end

section
/-! The decoder on command words (30_encoding.md R301, R302): it reads every command back from its word, and the OP
values that select no command are the reserved ones. -/

namespace Sys2Proof

/-- A command's OP and HS select it (R301). -/
@[simp] theorem decodeOp_op_hs (i : Instr) : decodeOp i.op i.hs = some i := by
  cases i <;> rfl

theorem Instr.op_of_hs {i : Instr} (h : i.hs = true) : i.op = 0x09 := by
  cases i with
  | aeEncrypt hs => rfl
  | _ => cases h

/-- The fields of a command's word are the command's OP and HS, with RSV 0 (R300). -/
theorem CommandWord.fields_encode (i : Instr) :
    CommandWord.op (encode i) = i.op ∧ CommandWord.hs (encode i) = i.hs ∧ CommandWord.rsv (encode i) = 0 := by
  cases i with
  | aeEncrypt hs =>
    obtain ⟨-, -, hfields⟩ := Laws.LegalWord.aeEncrypt hs
    exact hfields
  | _ => decide

theorem decodeWord_encode (i : Instr) : decodeWord (encode i) = .ok i := by
  obtain ⟨hop, hhs, hrsv⟩ := CommandWord.fields_encode i
  have hsalt : ¬(i.hs = true ∧ i.op ≠ 0x09) := fun ⟨h, hne⟩ => hne (Instr.op_of_hs h)
  simp only [decodeWord, hop, hhs, hrsv, decodeOp_op_hs, ne_eq, not_true_eq_false, if_false, if_neg hsalt]

/-- The OP values that R301 reserves select no command, with either HS. -/
theorem decodeOp_eq_none {op : Byte} (h : op = 0 ∨ 0x0B ≤ op.toNat) (hs : Bool) : decodeOp op hs = none := by
  obtain rfl | hlarge := h
  · rfl
  · unfold decodeOp
    split
    case h_11 => rfl
    all_goals omega

theorem decodeWord_of_decodeOp_eq_none {w : Word} (h : decodeOp (CommandWord.op w) (CommandWord.hs w) = none) :
    decodeWord w = .error .reservedOp := by
  simp only [decodeWord, h]

end Sys2Proof

open Sys2Proof

/-- Settles O1: the eleven words are the commands' own, and a reserved OP selects no command. -/
theorem commandWordsDecodeToTheirCommands : Obligations.CommandWordsDecodeToTheirCommands :=
  ⟨decodeWord_encode .keyExpand, decodeWord_encode .encBlock, decodeWord_encode .decBlock, decodeWord_encode .cbcEnc,
    decodeWord_encode .cbcDec, decodeWord_encode .kdf, decodeWord_encode .tagCompute, decodeWord_encode .tagVerify,
    decodeWord_encode (.aeEncrypt false), decodeWord_encode (.aeEncrypt true), decodeWord_encode .aeDecrypt,
    fun _ hop => decodeWord_of_decodeOp_eq_none (decodeOp_eq_none hop _)⟩

end

section
/-! GF(2^8) (40_tables_gf.md R401 to R405). A byte is a polynomial in `x`, and `xtime` multiplies it by `x`: every byte
comes from 0x01 by `xtime` and `^` (Horner's rule), so what is linear and commutes with `xtime` is settled by its value
at 0x01. Associativity and then commutativity follow. -/

namespace Sys2Proof.Machine

/-! ## Multiplication by a constant -/

theorem gmul_zero (a : Byte) : gmul a 0x00 = 0x00 := by simp [gmul, gmulLoop]

theorem zero_gmul (b : Byte) : gmul 0x00 b = 0x00 := by
  simpa using gmul_xor_left 0x00 0x00 b

theorem gmul_one (a : Byte) : gmul a 0x01 = a := by simp [gmul, gmulLoop]

theorem one_gmul : ∀ b : Byte, gmul 0x01 b = b := by decide +kernel

/-- Multiplication by 0x02 is `xtime` (R403). -/
theorem gmul_two (a : Byte) : gmul a 0x02 = xtime a := by simp [gmul, gmulLoop]

/-! ## `xtime` -/

theorem xtime_toNat (a : Byte) :
    (xtime a).toNat = (2 * a.toNat % 256) ^^^ (if 128 ≤ a.toNat then 0x1B else 0) := by
  have hbit : a.getLsbD 7 = decide (128 ≤ a.toNat) := a.msb_eq_decide
  have hshift : a.toNat <<< 1 = 2 * a.toNat := by rw [Nat.shiftLeft_eq, Nat.mul_comm]
  rw [xtime, hbit, BitVec.toNat_xor, BitVec.toNat_shiftLeft, hshift]
  by_cases h : 128 ≤ a.toNat <;> simp [h]

/-- `xtime` moves from the first factor out of the loop. -/
theorem gmulLoop_xtime_left (n : Nat) (r a b : Byte) :
    gmulLoop n (xtime r) (xtime a) b = xtime (gmulLoop n r a b) := by
  induction n generalizing r a b with
  | zero => rfl
  | succ n ih => simp only [gmulLoop, ← xtime_xor, ← apply_ite xtime, ih]

theorem gmul_xtime_left (a b : Byte) : gmul (xtime a) b = xtime (gmul a b) :=
  gmulLoop_xtime_left 8 0x00 a b

/-- A byte as the polynomial `x · q + b₀`, in Horner's form. -/
theorem xtime_ushiftRight_xor_bit_zero :
    ∀ b : Byte, xtime (b >>> 1) ^^^ (if b.getLsbD 0 then 0x01 else 0x00) = b := by decide +kernel

/-- What holds of 0x00 and 0x01 and is kept by `xtime` and `^` holds of every byte. -/
theorem byte_induction {P : Byte → Prop} (zero : P 0x00) (one : P 0x01) (step : ∀ a, P a → P (xtime a))
    (xor : ∀ a b, P a → P b → P (a ^^^ b)) (b : Byte) : P b := by
  induction hn : b.toNat using Nat.strong_induction_on generalizing b with
  | _ n ih =>
    by_cases hb : b = 0x00
    · exact hb ▸ zero
    · have hlt : (b >>> 1).toNat < n := by
        have : b.toNat ≠ 0 := fun h => hb (BitVec.eq_of_toNat_eq h)
        rw [BitVec.toNat_ushiftRight, Nat.shiftRight_eq_div_pow]
        omega
      have hbit : P (if b.getLsbD 0 then 0x01 else 0x00) := by
        split
        · exact one
        · exact zero
      rw [← xtime_ushiftRight_xor_bit_zero b]
      exact xor _ _ (step _ (ih _ hlt _ rfl)) hbit

/-! ## The laws of R402 -/

theorem gmul_assoc (a b c : Byte) : gmul (gmul a b) c = gmul a (gmul b c) := by
  induction a using byte_induction with
  | zero => simp only [zero_gmul]
  | one => simp only [one_gmul]
  | step a ih => simp only [gmul_xtime_left, ih]
  | xor a a' ih ih' => simp only [gmul_xor_left, ih, ih']

/-- `xtime` moves out of the second factor as well: it is a multiplication by 0x02 on the right. -/
theorem gmul_xtime_right (a b : Byte) : gmul a (xtime b) = xtime (gmul a b) := by
  rw [← gmul_two, ← gmul_two, gmul_assoc]

theorem gmul_comm (a b : Byte) : gmul a b = gmul b a := by
  induction a using byte_induction with
  | zero => rw [zero_gmul, gmul_zero]
  | one => rw [one_gmul, gmul_one]
  | step a ih => rw [gmul_xtime_left, gmul_xtime_right, ih]
  | xor a a' ih ih' => rw [gmul_xor_left, gmul_xor_right, ih, ih']

/-- Round k of R402 on the accumulator and the shifted first factor: it reads bit k of the second. -/
def gmulRound (b : Byte) (x : Byte × Byte) (k : Nat) : Byte × Byte :=
  (if b.getLsbD k then x.1 ^^^ x.2 else x.1, xtime x.2)

/-- The loop's n rounds, with the second factor already shifted k places, are the rounds k to k + n - 1. -/
theorem gmulLoop_eq_foldl_gmulRound (n k : Nat) (r a b : Byte) :
    gmulLoop n r a (b >>> k) = ((List.range' k n).foldl (gmulRound b) (r, a)).1 := by
  induction n generalizing k r a with
  | zero => rfl
  | succ n ih =>
    rw [gmulLoop, BitVec.getLsbD_ushiftRight, ← BitVec.shiftRight_add, ih]
    rfl

/-- Multiplication is the eight rounds of R402, from the accumulator 0x00. -/
theorem gmul_eq_foldl_gmulRound (a b : Byte) :
    gmul a b = ((List.range 8).foldl (gmulRound b) (0x00, a)).1 := by
  rw [List.range_eq_range', ← gmulLoop_eq_foldl_gmulRound, BitVec.ushiftRight_zero, gmul]

/-! ## The construction of SBOX (R405) -/

/-- `x` to the power 2^(n+1) - 2, by squaring: x² · (x²)^(2^n - 2). -/
def gpowPowTwoSubTwo : (n : Nat) → (x : Byte) → Byte
  | 0, _ => 0x01
  | n + 1, x => gmul (gmul x x) (gpowPowTwoSubTwo n (gmul x x))

/-- The inverse of R405: the field has 255 units, so x^254 inverts a nonzero x; and 0x00 goes to 0x00. -/
def ginv (x : Byte) : Byte := gpowPowTwoSubTwo 7 x

theorem ginv_zero : ginv 0x00 = 0x00 := by decide +kernel

theorem gmul_ginv : ∀ x : Byte, x ≠ 0x00 → gmul x (ginv x) = 0x01 := by decide +kernel

/-- The affine map of R405 on whole bytes: bit i + k (mod 8) is bit i after a rotation by k to the right. -/
def sboxAffine (y : Byte) : Byte :=
  y ^^^ y.rotateRight 4 ^^^ y.rotateRight 5 ^^^ y.rotateRight 6 ^^^ y.rotateRight 7 ^^^ 0x63

theorem getLsbD_rotateRight_eq_mod (y : Byte) {i : Nat} (k : Nat) (hi : i < 8) (hk : k < 8) :
    (y.rotateRight k).getLsbD i = y.getLsbD ((i + k) % 8) := by
  rw [BitVec.getLsbD_rotateRight, Nat.mod_eq_of_lt hk, Bool.cond_decide]
  split
  · rw [Nat.mod_eq_of_lt (by omega), Nat.add_comm]
  · rw [decide_eq_true hi, Bool.true_and]
    congr 1
    omega

theorem sboxAffine_getLsbD (y : Byte) {i : Nat} (hi : i < 8) :
    (sboxAffine y).getLsbD i =
      (y.getLsbD i ^^ y.getLsbD ((i + 4) % 8) ^^ y.getLsbD ((i + 5) % 8) ^^ y.getLsbD ((i + 6) % 8) ^^
        y.getLsbD ((i + 7) % 8) ^^ (0x63 : Byte).getLsbD i) := by
  simp only [sboxAffine, BitVec.getLsbD_xor, getLsbD_rotateRight_eq_mod y _ hi, Nat.reduceLT]

theorem sbox_eq_sboxAffine_ginv : ∀ x : Byte, sbox x = sboxAffine (ginv x) := by decide +kernel

end Sys2Proof.Machine

open Sys2Proof.Machine

/-- Settles O32: the algorithm is the loop's rounds in order; the laws go by what generates the bytes. -/
theorem fieldMultiplicationLaws : Obligations.FieldMultiplicationLaws :=
  ⟨gmul_eq_foldl_gmulRound, fun a b c =>
    ⟨gmul_comm a b, gmul_assoc a b c, gmul_xor_right a b c, gmul_one a, gmul_zero a⟩⟩

/-- Settles O31: the loop multiplies by 0x02 in its second round; the five examples are closed. -/
theorem xtimeIsMultiplicationByTwo : Obligations.XtimeIsMultiplicationByTwo :=
  ⟨fun a => ⟨(gmul_two a).symm, xtime_toNat a⟩, by decide⟩

/-- Settles O33: the inverse is x^254, and the affine map acts on its bits. -/
theorem sboxFollowsItsConstruction : Obligations.SboxFollowsItsConstruction := by
  intro x
  refine ⟨ginv x, ?_, fun i hi => by rw [sbox_eq_sboxAffine_ginv, sboxAffine_getLsbD _ hi]⟩
  split
  next hx => rw [hx, ginv_zero]
  next hx => exact gmul_ginv x hx

end

section
/-! KEY_EXPAND (41_key_schedule.md R420 to R425): which result each key length gives, and the words of the store it
loads. -/

namespace Sys2Proof.Machine

open Sys2Proof.Spec

/-! ## The key length and the key's words (R420) -/

theorem State.keyLenValid_iff (s : State) : s.keyLenValid = true ↔ KeyLenValid s := by
  simp only [State.keyLenValid, KeyLenValid, Bool.or_eq_true, beq_iff_eq, or_assoc]

/-- A legal KEY_LEN as a number of bytes. -/
theorem State.keyLen_toNat_of_valid {s : State} (h : KeyLenValid s) :
    s.keyLen.toNat = 16 ∨ s.keyLen.toNat = 24 ∨ s.keyLen.toNat = 32 := by
  obtain h | h | h := h <;> simp [h]

/-- No legal KEY_LEN reaches past the 32 bytes of KEY. -/
theorem State.keyBytes_length_of_valid {s : State} (h : KeyLenValid s) : s.keyBytes.length = s.keyLen.toNat :=
  s.keyBytes_length (by have := State.keyLen_toNat_of_valid h; omega)

theorem State.keyBytes_getD {s : State} (h : s.keyLen.toNat ≤ 32) {k : Nat} (hk : k < s.keyLen.toNat) :
    s.keyBytes.getD k 0 = s.windowByte .key k := by
  simp [s.keyBytes_eq_map h, hk]

/-- A whole word of the key in KEY (R420). -/
theorem State.keyWord_keyBytes {s : State} (h : s.keyLen.toNat ≤ 32) {i : Nat} (hi : i < s.keyLen.toNat / 4) :
    keyWord s.keyBytes i =
      ⟨s.windowByte .key (4 * i), s.windowByte .key (4 * i + 1), s.windowByte .key (4 * i + 2),
        s.windowByte .key (4 * i + 3)⟩ := by
  have byte {j : Nat} (hj : j < 4) : s.keyBytes.getD (4 * i + j) 0 = s.windowByte .key (4 * i + j) :=
    State.keyBytes_getD h (by omega)
  rw [keyWord, byte (j := 1) (by decide), byte (j := 2) (by decide), byte (j := 3) (by decide),
    ← Nat.add_zero (4 * i), byte (j := 0) (by decide)]

/-- Nr = Nk + 6 for each legal key length (R420). -/
theorem roundCount_div_four {n : Nat} (h : n = 16 ∨ n = 24 ∨ n = 32) : roundCount (n / 4) = n / 4 + 6 := by
  obtain rfl | rfl | rfl := h <;> rfl

/-! ## The words of the store (R422, R130) -/

/-- The schedule of the key in KEY, its lengths written with KEY_LEN. -/
theorem State.keyExpansion_keyBytes_spec {s : State} (h : KeyLenValid s) :
    (keyExpansion s.keyBytes).length = 4 * (s.keyLen.toNat / 4 + 6 + 1) ∧
    (∀ i < s.keyLen.toNat / 4, (keyExpansion s.keyBytes).getD i Word4.zero = keyWord s.keyBytes i) ∧
    ∀ i, s.keyLen.toNat / 4 ≤ i → i < 4 * (s.keyLen.toNat / 4 + 6 + 1) →
      (keyExpansion s.keyBytes).getD i Word4.zero =
        xorWord4 ((keyExpansion s.keyBytes).getD (i - s.keyLen.toNat / 4) Word4.zero)
          (scheduleTemp (s.keyLen.toNat / 4) i (i / (s.keyLen.toNat / 4))
            ((keyExpansion s.keyBytes).getD (i - 1) Word4.zero)) := by
  have hlen := State.keyLen_toNat_of_valid h
  have hbytes := State.keyBytes_length_of_valid h
  rw [← roundCount_div_four hlen, ← hbytes]
  rw [← hbytes] at hlen
  exact ⟨keyExpansion_length hlen, keyExpansion_spec hlen⟩

/-- The transformed previous word, byte by byte (R421, R422). -/
theorem scheduleTemp_eq_ite (nk i j : Nat) (prev : Word4) :
    scheduleTemp nk i j prev =
      if i % nk = 0 then ⟨sbox prev.b1 ^^^ rcon j, sbox prev.b2, sbox prev.b3, sbox prev.b0⟩
      else if nk = 8 ∧ i % nk = 4 then ⟨sbox prev.b0, sbox prev.b1, sbox prev.b2, sbox prev.b3⟩
      else prev := rfl

theorem State.withSchedule_rk_getElem (s : State) (i : Fin 60) :
    s.withSchedule.rk[i] = (keyExpansion s.keyBytes).getD i.val Word4.zero :=
  loadSchedule_getElem _ i

section
variable {s : State} (h : KeyLenValid s) (i : Fin 60)
include h

theorem State.withSchedule_rk_of_lt (hi : i.val < s.keyLen.toNat / 4) :
    s.withSchedule.rk[i] =
      ⟨s.windowByte .key (4 * i), s.windowByte .key (4 * i + 1), s.windowByte .key (4 * i + 2),
        s.windowByte .key (4 * i + 3)⟩ := by
  have hlen := State.keyLen_toNat_of_valid h
  obtain ⟨-, first, -⟩ := State.keyExpansion_keyBytes_spec h
  rw [s.withSchedule_rk_getElem, first i hi, State.keyWord_keyBytes (by omega) hi]

/-- A later word, from the previous word p and the word q that stands Nk places before. -/
theorem State.withSchedule_rk_of_le (p q : Fin 60) (hlow : s.keyLen.toNat / 4 ≤ i.val)
    (hhigh : i.val < 4 * (s.keyLen.toNat / 4 + 6 + 1)) (hp : p.val + 1 = i.val)
    (hq : q.val + s.keyLen.toNat / 4 = i.val) :
    s.withSchedule.rk[i] =
      xorWord4 s.withSchedule.rk[q]
        (scheduleTemp (s.keyLen.toNat / 4) i (i / (s.keyLen.toNat / 4)) s.withSchedule.rk[p]) := by
  obtain ⟨-, -, next⟩ := State.keyExpansion_keyBytes_spec h
  simp only [State.withSchedule_rk_getElem]
  rw [next i hlow hhigh, Nat.sub_eq_of_eq_add hp.symm, Nat.sub_eq_of_eq_add hq.symm]

theorem State.withSchedule_rk_past_end (hi : 4 * (s.keyLen.toNat / 4 + 6 + 1) ≤ i.val) :
    s.withSchedule.rk[i] = Word4.zero := by
  obtain ⟨hlength, -, -⟩ := State.keyExpansion_keyBytes_spec h
  rw [s.withSchedule_rk_getElem, List.getD_eq_default _ _ (hlength.trans_le hi)]

end

/-! ## The result of each key length (R425) -/

theorem keyExpandResult_of_keyLen_eq_zero {s : State} (h : s.keyLen = 0) :
    keyExpandResult s = .error .emptyKey := if_pos h

theorem keyExpandResult_of_not_valid {s : State} (h0 : s.keyLen ≠ 0) (hv : ¬KeyLenValid s) :
    keyExpandResult s = .error .invalidKeyLength := by
  rw [← s.keyLenValid_iff] at hv
  rw [keyExpandResult, if_neg h0, if_pos (by simpa using hv)]

theorem keyExpandResult_of_valid {s : State} (hv : KeyLenValid s) : keyExpandResult s = .ok s.withSchedule := by
  have h0 : s.keyLen ≠ 0 := by obtain h | h | h := hv <;> simp [h]
  rw [keyExpandResult, if_neg h0, if_neg (by simp [s.keyLenValid_iff.2 hv])]

end Sys2Proof.Machine

open Sys2Proof Sys2Proof.Machine Sys2Proof.Spec

/-- Settles O35: the result of each key length is one completion, and the words of the loaded store are the words
of the expanded key. -/
theorem keyExpandLoadsTheSchedule : Obligations.KeyExpandLoadsTheSchedule := by
  refine ⟨⟨rfl, fun j => rcon_succ⟩, fun s => ⟨
    fun h0 => exec_error (i := .keyExpand) (keyExpandResult_of_keyLen_eq_zero h0),
    fun h0 hv => exec_error (i := .keyExpand) (keyExpandResult_of_not_valid h0 hv), fun hv => ?_⟩⟩
  refine ⟨_, exec_ok (i := .keyExpand) (keyExpandResult_of_valid hv), ?_, fun i => State.withSchedule_rk_of_lt hv i,
    fun i p q hlow hhigh hp hq => ?_, fun i => State.withSchedule_rk_past_end hv i⟩
  · rw [← roundCount_div_four (State.keyLen_toNat_of_valid hv)]
    rfl
  · have next := State.withSchedule_rk_of_le hv i p q hlow hhigh hp hq
    rw [scheduleTemp_eq_ite] at next
    exact next

end

section
/-! The State matrix entry by entry (42_block_cipher.md R440 to R447; R423 for the round keys): an entry is a byte of a
column, each round primitive but the row shifts acts on one column at a time, and the row shifts move the bytes of a
row between columns. -/

namespace Sys2Proof

/-- Byte r of a word, from the top. -/
def Word4.byte (t : Word4) (r : Nat) : Byte := [t.b0, t.b1, t.b2, t.b3].getD r 0

/-- Column c of a matrix. -/
def Matrix.column (s : Matrix) (c : Nat) : Word4 := [s.c0, s.c1, s.c2, s.c3].getD c Word4.zero

/-- A function of a column applied to each of the four. -/
def Matrix.mapColumns (f : Word4 → Word4) (s : Matrix) : Matrix := ⟨f s.c0, f s.c1, f s.c2, f s.c3⟩

theorem Matrix.column_mapColumns (f : Word4 → Word4) (s : Matrix) {c : Nat} (hc : c < 4) :
    (s.mapColumns f).column c = f (s.column c) := by
  interval_cases c <;> rfl

namespace Machine

open Spec

theorem entry_eq_column_byte (s : Matrix) (r c : Nat) : entry s r c = (s.column c).byte r := rfl

/-! ## Bytes of a column -/

theorem byte_xorWord4 (t u : Word4) {r : Nat} (hr : r < 4) :
    (xorWord4 t u).byte r = t.byte r ^^^ u.byte r := by
  interval_cases r <;> rfl

theorem byte_subWord (t : Word4) {r : Nat} (hr : r < 4) : (subWord t).byte r = sbox (t.byte r) := by
  interval_cases r <;> rfl

theorem byte_invSubWord (t : Word4) {r : Nat} (hr : r < 4) : (invSubWord t).byte r = invSbox (t.byte r) := by
  interval_cases r <;> rfl

/-! ## Columns of a matrix -/

theorem column_addRoundKey (s k : Matrix) {c : Nat} (hc : c < 4) :
    (addRoundKey s k).column c = xorWord4 (s.column c) (k.column c) := by
  interval_cases c <;> rfl

theorem column_subBytes (s : Matrix) {c : Nat} (hc : c < 4) : (subBytes s).column c = subWord (s.column c) :=
  s.column_mapColumns subWord hc

theorem column_invSubBytes (s : Matrix) {c : Nat} (hc : c < 4) :
    (invSubBytes s).column c = invSubWord (s.column c) :=
  s.column_mapColumns invSubWord hc

theorem column_mixColumns (s : Matrix) {c : Nat} (hc : c < 4) :
    (mixColumns s).column c = mixColumn (s.column c) :=
  s.column_mapColumns mixColumn hc

theorem column_invMixColumns (s : Matrix) {c : Nat} (hc : c < 4) :
    (invMixColumns s).column c = invMixColumn (s.column c) :=
  s.column_mapColumns invMixColumn hc

/-- Column c of round-key matrix i is word 4i + c of the store (R423). -/
theorem column_roundKey (rk : RoundKeys) (i : Nat) {c : Nat} (hc : c < 4) :
    (roundKey rk i).column c = (rk[4 * i + c]?).getD Word4.zero := by
  interval_cases c <;> rfl

/-! ## Entries -/

theorem fromMatrix_getElem? (s : Matrix) {r c : Nat} (hr : r < 4) (hc : c < 4) :
    (fromMatrix s)[r + 4 * c]? = some (entry s r c) := by
  interval_cases c <;> interval_cases r <;> rfl

/-- The entries of a block's matrix are the block's bytes: the layout undoes itself. -/
theorem block_getElem?_eq_entry (b : Block) {r c : Nat} (hr : r < 4) (hc : c < 4) :
    b[r + 4 * c]? = some (entry (toMatrix b) r c) := by
  simpa only [fromMatrix_toMatrix] using fromMatrix_getElem? (toMatrix b) hr hc

theorem entry_roundKey {rk : RoundKeys} {i c : Nat} {w : Word4} (hc : c < 4) (hw : rk[4 * i + c]? = some w)
    (r : Nat) : entry (roundKey rk i) r c = w.byte r := by
  rw [entry_eq_column_byte, column_roundKey rk i hc, hw, Option.getD_some]

theorem entry_addRoundKey (s k : Matrix) {r c : Nat} (hr : r < 4) (hc : c < 4) :
    entry (addRoundKey s k) r c = entry s r c ^^^ entry k r c := by
  simp only [entry_eq_column_byte, column_addRoundKey s k hc, byte_xorWord4 _ _ hr]

theorem entry_subBytes (s : Matrix) {r c : Nat} (hr : r < 4) (hc : c < 4) :
    entry (subBytes s) r c = sbox (entry s r c) := by
  simp only [entry_eq_column_byte, column_subBytes s hc, byte_subWord _ hr]

theorem entry_invSubBytes (s : Matrix) {r c : Nat} (hr : r < 4) (hc : c < 4) :
    entry (invSubBytes s) r c = invSbox (entry s r c) := by
  simp only [entry_eq_column_byte, column_invSubBytes s hc, byte_invSubWord _ hr]

theorem entry_shiftRows (s : Matrix) {r c : Nat} (hr : r < 4) (hc : c < 4) :
    entry (shiftRows s) r c = entry s r ((c + r) % 4) := by
  interval_cases r <;> interval_cases c <;> rfl

/-- InvShiftRows takes back what ShiftRows took: column (c - r) mod 4 goes to column c. -/
theorem entry_invShiftRows (s : Matrix) {r c : Nat} (hr : r < 4) (hc : c < 4) :
    entry (invShiftRows s) r c = entry s r ((c + 4 - r) % 4) := by
  have hback : ((c + 4 - r) % 4 + r) % 4 = c := by omega
  have hshift := entry_shiftRows (invShiftRows s) hr (Nat.mod_lt (c + 4 - r) (by decide))
  rw [shiftRows_invShiftRows, hback] at hshift
  exact hshift.symm

theorem entry_mixColumns (s : Matrix) (r : Nat) {c : Nat} (hc : c < 4) :
    entry (mixColumns s) r c = (mixColumn (s.column c)).byte r := by
  rw [entry_eq_column_byte, column_mixColumns s hc]

theorem entry_invMixColumns (s : Matrix) (r : Nat) {c : Nat} (hc : c < 4) :
    entry (invMixColumns s) r c = (invMixColumn (s.column c)).byte r := by
  rw [entry_eq_column_byte, column_invMixColumns s hc]

end Machine

end Sys2Proof

open Sys2Proof.Machine

/-- Settles O36: each primitive by its entry lemma; byte r of a mixed column is by definition the rule's sum r of
that column's bytes. -/
theorem roundPrimitivesByEntry : Obligations.RoundPrimitivesByEntry := by
  intro s k b rk i r c hr hc
  have mix (row : Nat) := entry_mixColumns s row hc
  have invMix (row : Nat) := entry_invMixColumns s row hc
  exact ⟨(block_getElem?_eq_entry b hr hc).symm, (fromMatrix_getElem? s hr hc).symm,
    fun _ hw => entry_roundKey hc hw r, entry_addRoundKey s k hr hc, entry_subBytes s hr hc,
    entry_invSubBytes s hr hc, entry_shiftRows s hr hc, entry_invShiftRows s hr hc,
    ⟨mix 0, mix 1, mix 2, mix 3⟩, ⟨invMix 0, invMix 1, invMix 2, invMix 3⟩⟩

end

section
/-! ENC_BLOCK and DEC_BLOCK (42_block_cipher.md R449, R450, R455, R456): the rounds of the engine in the order of
their round keys, and which result a block command has. -/

namespace Sys2Proof.Machine

/-- The rounds of the cipher take the round keys 1 to n in rising order (R449). -/
theorem encRounds_eq_foldl (rk : RoundKeys) (n : Nat) (m : Matrix) :
    encRounds rk n m = ((List.range n).map (· + 1)).foldl (fun m i => encRound m (roundKey rk i)) m := by
  induction n with
  | zero => rfl
  | succ n ih => rw [encRounds, ih, List.range_succ, List.map_append, List.foldl_append]; rfl

/-- The rounds of the inverse cipher take the round keys n to 1 in falling order (R450). -/
theorem decRounds_eq_foldl (rk : RoundKeys) (n : Nat) (m : Matrix) :
    decRounds rk n m = ((List.range n).map (n - ·)).foldl (fun m i => decRound m (roundKey rk i)) m := by
  induction n generalizing m with
  | zero => rfl
  | succ n ih =>
    have htail : (List.range n).map ((n + 1 - ·) ∘ Nat.succ) = (List.range n).map (n - ·) :=
      List.map_congr_left fun k _ => Nat.add_sub_add_right n 1 k
    rw [decRounds, ih, List.range_succ_eq_map, List.map_cons, List.map_map, htail]
    rfl

section
variable (f : RoundKeys → Nat → Block → Block) {s : State}

theorem blockResult_of_no_schedule (h : s.ksValid = false) :
    blockResult f s = .error (.contractViolation .noKeySchedule) := if_pos h

theorem blockResult_of_schedule (h : s.ksValid = true) :
    blockResult f s = .ok (s.writeBlockOut (f s.rk s.nr.toNat s.blockIn)) := if_neg (by simp [h])

end

end Sys2Proof.Machine

open Sys2Proof.Machine

/-- Settles O38: one completion per result, and the engine's rounds written in the order of their round keys, which
holds for every round count. -/
theorem blockCommandsRunTheEngine : Obligations.BlockCommandsRunTheEngine := by
  refine fun s => ⟨fun h => ⟨exec_error (i := .encBlock) (blockResult_of_no_schedule cipher h),
    exec_error (i := .decBlock) (blockResult_of_no_schedule invCipher h)⟩, fun h _ => ⟨?_, ?_⟩⟩
  · rw [exec_ok (i := .encBlock) (blockResult_of_schedule cipher h), cipher, encRounds_eq_foldl]
    rfl
  · rw [exec_ok (i := .decBlock) (blockResult_of_schedule invCipher h), invCipher, decRounds_eq_foldl]
    rfl

end

section
/-! Chained mode (43_chained_mode.md R470 to R481): padding and its removal byte by byte, the blocks of a string and
of a window, the chain of a ciphertext, and which result a CBC command has. -/

namespace Sys2Proof.Machine

open Sys2Proof.Spec

/-! ## Pad (R470, R471) -/

theorem pad_take (m : List Byte) : (pad m).take m.length = m := List.take_left

theorem pad_drop (m : List Byte) :
    (pad m).drop m.length = List.replicate (16 - m.length % 16) (BitVec.ofNat 8 (16 - m.length % 16)) :=
  List.drop_left

theorem length_lt_pad_length (m : List Byte) : m.length < (pad m).length := by
  rw [pad_length]
  omega

/-- A pad length, 1 to 16, fits a byte. -/
theorem toNat_padByte (n : Nat) : (BitVec.ofNat 8 (16 - n % 16)).toNat = 16 - n % 16 := by
  rw [BitVec.toNat_ofNat, Nat.mod_eq_of_lt (by omega)]

theorem pad_getD (m : List Byte) {k : Nat} (hk : k < (pad m).length) :
    (pad m).getD k 0 = if k < m.length then m.getD k 0 else BitVec.ofNat 8 (16 - m.length % 16) := by
  rw [pad_length] at hk
  simp only [List.getD_eq_getElem?_getD, pad]
  split
  next h => rw [List.getElem?_append_left h]
  next h =>
    rw [List.getElem?_append_right (by omega), List.getElem?_replicate_of_lt (by omega), Option.getD_some]

theorem pad_getD_of_le {m : List Byte} {k : Nat} (hle : m.length ≤ k) (hk : k < (pad m).length) :
    (pad m).getD k 0 = BitVec.ofNat 8 (16 - m.length % 16) := by
  rw [pad_getD m hk, if_neg (Nat.not_lt.2 hle)]

/-- The pad length of a padded message stands in its last byte. -/
theorem toNat_pad_getD_last (m : List Byte) :
    ((pad m).getD ((pad m).length - 1) 0).toNat = 16 - m.length % 16 := by
  have := length_lt_pad_length m
  rw [pad_getD_of_le (by omega) (by omega), toNat_padByte]

/-! ## Unpad (R472, R473) -/

theorem all_drop_eq_iff (m : List Byte) (n : Nat) (b : Byte) :
    (m.drop n).all (· == b) = true ↔ ∀ k, n ≤ k → k < m.length → m.getD k 0 = b := by
  simp only [List.all_eq_true, beq_iff_eq, List.forall_mem_iff_getElem, List.getElem_drop, List.length_drop]
  constructor
  · intro h k hle hlt
    have := h (k - n) (by omega)
    rwa [← List.getD_eq_getElem _ 0, Nat.add_sub_cancel' hle] at this
  · intro h i hi
    rw [← List.getD_eq_getElem _ 0]
    exact h (n + i) (by omega) (by omega)

/-- Unpad of any string; the empty string, whose absent last byte reads 0, has no valid padding. -/
theorem unpad_eq_some_iff (m r : List Byte) :
    unpad m = some r ↔
      PaddingValid (fun k => m.getD k 0) m.length ∧ r = m.take (m.length - (m.getD (m.length - 1) 0).toNat) := by
  by_cases hm : m = []
  · simp [hm, unpad, PaddingValid]
  · have hpos : 0 < m.length := List.length_pos_iff.2 hm
    have hlast : m.getLast? = some (m.getD (m.length - 1) 0) := by
      rw [List.getLast?_eq_getElem?, List.getD_eq_getElem?_getD, List.getElem?_eq_getElem (by omega), Option.getD_some]
    simp only [unpad, hlast, PaddingValid, ← all_drop_eq_iff]
    split_ifs with hrange hall
    · exact ⟨nofun, fun ⟨⟨h1, h16, _⟩, _⟩ => by omega⟩
    · exact ⟨fun h => ⟨⟨by omega, by omega, hall⟩, (Option.some.inj h).symm⟩, fun ⟨_, h⟩ => congrArg some h.symm⟩
    · exact ⟨nofun, fun ⟨⟨_, _, h⟩, _⟩ => absurd h hall⟩

theorem unpad_eq_none_iff (m : List Byte) : unpad m = none ↔ ¬ PaddingValid (fun k => m.getD k 0) m.length := by
  simp only [Option.eq_none_iff_forall_ne_some, ne_eq, unpad_eq_some_iff, not_and]
  exact ⟨fun h hv => h _ hv rfl, fun h r hv => absurd hv h⟩

theorem paddingValid_pad (m : List Byte) : PaddingValid (fun k => (pad m).getD k 0) (pad m).length := by
  have hlast := toNat_pad_getD_last m
  have hlt := length_lt_pad_length m
  have hlen := pad_length m
  simp only [PaddingValid, hlast]
  refine ⟨by omega, by omega, fun k hle hk => ?_⟩
  rw [pad_getD_of_le (by omega) hk, pad_getD_of_le (by omega) (by omega)]

theorem unpad_pad (m : List Byte) : unpad (pad m) = some m := by
  rw [unpad_eq_some_iff, toNat_pad_getD_last, pad_length]
  refine ⟨pad_length m ▸ paddingValid_pad m, ?_⟩
  rw [show 16 * (m.length / 16 + 1) - (16 - m.length % 16) = m.length by omega, pad_take]

theorem paddingValid_congr {q q' : Nat → Byte} {n : Nat} (hn : 0 < n) (h : ∀ k < n, q k = q' k) :
    PaddingValid q n ↔ PaddingValid q' n := by
  unfold PaddingValid
  rw [h (n - 1) (by omega)]
  exact and_congr_right fun _ => and_congr_right fun _ => forall₃_congr fun k _ hk => by rw [h k hk]

/-! ## Blocks of a string and of a window -/

theorem blockAt_eq_ofFn {m : List Byte} {j : Nat} {f : Nat → Byte} (h : ∀ k < 16, m.getD (16 * j + k) 0 = f k) :
    blockAt m j = Vector.ofFn fun k : Fin 16 => f k.val := by
  apply Vector.ext
  intro k hk
  simpa [blockAt, firstBytes] using h k hk

theorem blocksOf_getElem? {m : List Byte} {j : Nat} (hj : j < m.length / 16) :
    (blocksOf m)[j]? = some (blockAt m j) := by
  rw [blocksOf, List.getElem?_map, List.getElem?_range hj, Option.map_some]

theorem blocksOf_getD {m : List Byte} {j : Nat} (hj : j < m.length / 16) (d : Block) :
    (blocksOf m).getD j d = blockAt m j := by
  rw [List.getD_eq_getElem?_getD, blocksOf_getElem? hj, Option.getD_some]

theorem blockAt_joinBlocks {bs : List Block} {j : Nat} (hj : j < bs.length) (d : Block) :
    blockAt (joinBlocks bs) j = bs.getD j d := by
  rw [← blocksOf_getD (by rw [joinBlocks_length]; omega) d, blocksOf_joinBlocks]

/-- Block j of the padded message. -/
theorem blockAt_pad_message (s : State) {j : Nat} (hj : j < paddedBlocks s.msgLen.toNat) :
    blockAt (pad s.message) j = paddedBlock s j := by
  unfold paddedBlock
  refine blockAt_eq_ofFn (f := fun k => paddedByte s (16 * j + k)) fun k hk => ?_
  rw [paddedBlocks] at hj
  rw [pad_getD _ (by rw [pad_length, State.message_length]; omega), State.message_length, paddedByte]
  split
  next h => exact s.message_getD _ h
  next => rfl

/-- What DOUT holds after a command has written its output and completed (R115, R611). -/
theorem State.windowByte_dout_writeOutput_finish (s : State) (bs : List Byte) (c d : BitVec 4) (k : Nat) :
    ((s.writeOutput bs).finish c d).windowByte .dout k =
      if k < bs.length then bs.getD k 0 else s.windowByte .dout k :=
  s.doutByte_writeOutput bs k

/-- A whole block of the output, read back from DOUT. -/
theorem State.windowBlock_dout_writeOutput_finish (s : State) (bs : List Byte) (c d : BitVec 4) {j : Nat}
    (hj : 16 * j + 16 ≤ bs.length) :
    windowBlock ((s.writeOutput bs).finish c d) .dout (16 * j) = blockAt bs j := by
  unfold windowBlock
  refine (blockAt_eq_ofFn (f := fun k => ((s.writeOutput bs).finish c d).windowByte .dout (16 * j + k))
    fun k hk => ?_).symm
  rw [State.windowByte_dout_writeOutput_finish, if_pos (by omega)]

/-! ## The chain (R474, R475, R477) -/

theorem cbcChain_congr {enc : Block → Block} {iv : Block} {p p' c c' : Nat → Block} {n : Nat}
    (hp : ∀ j < n, p j = p' j) (hc : ∀ j < n, c j = c' j) (h : CbcChain enc iv p c n) : CbcChain enc iv p' c' n := by
  intro j hj
  rw [← hc j hj, ← hp j hj, ← hc (j - 1) (by omega)]
  exact h j hj

/-- The encryption loop builds the chain of its plaintext blocks. -/
theorem cbcEncBlocks_chain (enc : Block → Block) (iv : Block) (ps : List Block) (d : Block) :
    CbcChain enc iv (fun j => ps.getD j d) (fun j => (cbcEncBlocks enc iv ps).getD j d) ps.length := by
  intro j hj
  have hp : ps[j]? = some (ps.getD j d) := by simp [hj]
  refine (List.getD_eq_getElem?_getD ..).trans ?_
  rw [cbcEncBlocks_getElem? enc iv ps j _ d hp]
  rfl

/-- The ciphertext of a message, cut into blocks, is the chain of the padded message's blocks. -/
theorem cbcEncrypt_chain (rk : RoundKeys) (nr : Nat) (iv : Block) (m : List Byte) :
    CbcChain (cipher rk nr) iv (blockAt (pad m)) (blockAt (cbcEncrypt rk nr iv m)) (paddedBlocks m.length) := by
  have hn : (blocksOf (pad m)).length = paddedBlocks m.length := by
    rw [blocksOf_length, pad_length, paddedBlocks, Nat.mul_div_cancel_left _ (by decide)]
  rw [← hn]
  refine cbcChain_congr (fun j hj => blocksOf_getD (by simpa using hj) iv) (fun j hj => ?_)
    (cbcEncBlocks_chain (cipher rk nr) iv (blocksOf (pad m)) iv)
  exact (blockAt_joinBlocks (by simpa using hj) iv).symm

/-- A byte of the raw plaintext of a ciphertext that stands in DIN from offset a on. -/
theorem cbcDecryptRaw_getD {s : State} {c : List Byte} {a : Nat} (rk : RoundKeys) (nr : Nat) (iv : Block)
    (hc : ∀ k < c.length, c.getD k 0 = s.windowByte .din (a + k)) (hlen : c.length % 16 = 0) {k : Nat}
    (hk : k < c.length) :
    (cbcDecryptRaw rk nr iv c).getD k 0 = rawPlainByte s (invCipher rk nr) iv a k := by
  have block {j : Nat} (hj : j < c.length / 16) : blockAt c j = windowBlock s .din (a + 16 * j) := by
    unfold windowBlock
    refine blockAt_eq_ofFn (f := fun i => s.windowByte .din (a + 16 * j + i)) fun i hi => ?_
    rw [hc _ (by omega), Nat.add_assoc]
  have hj : k / 16 < c.length / 16 := by omega
  have hbefore : k / 16 - 1 < c.length / 16 := by omega
  rw [cbcDecryptRaw, List.getD_eq_getElem?_getD, joinBlocks_getElem?, cbcDecBlocks_getElem?, blocksOf_getElem? hj,
    blocksOf_getD hbefore, Option.map_some, Option.bind_some, xorBytes_getElem? _ _ _ (Nat.mod_lt k (by decide)),
    block hj, block hbefore]
  rfl

theorem cbcDecryptRaw_message_getD (s : State) {k : Nat} (hlen : s.msgLen.toNat % 16 = 0) (hk : k < s.msgLen.toNat) :
    (cbcDecryptRaw s.rk s.nr.toNat s.iv s.message).getD k 0 =
      rawPlainByte s (invCipher s.rk s.nr.toNat) s.iv 0 k := by
  rw [← s.message_length] at hlen hk
  refine cbcDecryptRaw_getD _ _ _ (fun i hi => ?_) hlen hk
  rw [Nat.zero_add, s.message_getD i (by simpa using hi)]

/-- The padding of the raw plaintext, said of its bytes as the rules give them. -/
theorem paddingValid_cbcDecryptRaw_message_iff {s : State} (h0 : 0 < s.msgLen.toNat) (h16 : s.msgLen.toNat % 16 = 0) :
    PaddingValid (fun k => (cbcDecryptRaw s.rk s.nr.toNat s.iv s.message).getD k 0)
        (cbcDecryptRaw s.rk s.nr.toNat s.iv s.message).length ↔
      PaddingValid (rawPlainByte s (invCipher s.rk s.nr.toNat) s.iv 0) s.msgLen.toNat := by
  rw [cbcDecryptRaw_length _ _ _ _ (by rwa [s.message_length]), s.message_length]
  exact paddingValid_congr h0 fun k hk => cbcDecryptRaw_message_getD s h16 hk

theorem xorBytes_xorBytes_cancel_left {n : Nat} (a b c : Vector Byte n) :
    xorBytes (xorBytes a b) (xorBytes a c) = xorBytes b c := by
  apply Vector.ext
  intro i h
  simp only [xorBytes, Vector.getElem_zipWith]
  rw [BitVec.xor_comm a[i], BitVec.xor_assoc, ← BitVec.xor_assoc a[i], BitVec.xor_self, BitVec.zero_xor]

/-! ## The results of CBC_ENC and CBC_DEC (R480, R481) -/

theorem State.messageTooLong_eq_false_iff (s : State) : s.messageTooLong = false ↔ MessageFits s := by
  rw [State.messageTooLong, decide_eq_false_iff_not, Nat.not_lt, MessageFits]

theorem State.messageTooLong_iff (s : State) : s.messageTooLong = true ↔ ¬ MessageFits s := by
  rw [← s.messageTooLong_eq_false_iff, Bool.not_eq_false]

section
variable {s : State}

theorem cbcResults_of_no_schedule (h : s.ksValid = false) :
    cbcEncResult s = .error (.contractViolation .noKeySchedule) ∧
      cbcDecResult s = .error (.contractViolation .noKeySchedule) := ⟨if_pos h, if_pos h⟩

variable (hk : s.ksValid = true)
include hk

theorem cbcResults_of_too_long (hm : ¬ MessageFits s) :
    cbcEncResult s = .error (.contractViolation .messageTooLong) ∧
      cbcDecResult s = .error (.contractViolation .messageTooLong) := by
  rw [← s.messageTooLong_iff] at hm
  simp [cbcEncResult, cbcDecResult, hk, hm]

variable (hm : MessageFits s)
include hm

theorem cbcEncResult_of_fits :
    cbcEncResult s = .ok (s.writeOutput (cbcEncrypt s.rk s.nr.toNat s.iv s.message)) := by
  rw [← s.messageTooLong_eq_false_iff] at hm
  simp [cbcEncResult, hk, hm]

theorem cbcDecResult_of_bad_length (hlen : s.msgLen.toNat = 0 ∨ s.msgLen.toNat % 16 ≠ 0) :
    cbcDecResult s = .error (.contractViolation .badCiphertextLength) := by
  rw [← s.messageTooLong_eq_false_iff] at hm
  rw [cbcDecResult, if_neg (by simp [hk]), if_neg (by simp [hm]), if_pos hlen]

variable (h0 : 0 < s.msgLen.toNat) (h16 : s.msgLen.toNat % 16 = 0)
include h0 h16

/-- Past its checks, CBC_DEC's result is the decryption's. -/
theorem cbcDecResult_of_checks :
    cbcDecResult s =
      ((cbcDecrypt s.rk s.nr.toNat s.iv s.message).elim (.error .paddingError) fun m => .ok (s.writeOutput m)) := by
  rw [← s.messageTooLong_eq_false_iff] at hm
  rw [cbcDecResult, if_neg (by simp [hk]), if_neg (by simp [hm]), if_neg (by omega)]
  cases cbcDecrypt s.rk s.nr.toNat s.iv s.message <;> rfl

theorem cbcDecResult_of_bad_padding
    (hpad : ¬ PaddingValid (rawPlainByte s (invCipher s.rk s.nr.toNat) s.iv 0) s.msgLen.toNat) :
    cbcDecResult s = .error .paddingError := by
  rw [← paddingValid_cbcDecryptRaw_message_iff h0 h16, ← unpad_eq_none_iff] at hpad
  rw [cbcDecResult_of_checks hk hm h0 h16, cbcDecrypt, hpad, Option.elim_none]

/-- With valid padding, CBC_DEC writes the decrypted bytes before it. -/
theorem cbcDecResult_of_padding
    (hpad : PaddingValid (rawPlainByte s (invCipher s.rk s.nr.toNat) s.iv 0) s.msgLen.toNat) :
    ∃ r, cbcDecResult s = .ok (s.writeOutput r) ∧
      r.length = s.msgLen.toNat -
        (rawPlainByte s (invCipher s.rk s.nr.toNat) s.iv 0 (s.msgLen.toNat - 1)).toNat ∧
      ∀ k < r.length, r.getD k 0 = rawPlainByte s (invCipher s.rk s.nr.toNat) s.iv 0 k := by
  rw [← paddingValid_cbcDecryptRaw_message_iff h0 h16] at hpad
  have hlen := cbcDecryptRaw_length s.rk s.nr.toNat s.iv s.message (by rwa [s.message_length])
  have hunpad := (unpad_eq_some_iff _ _).2 ⟨hpad, rfl⟩
  rw [hlen, s.message_length, cbcDecryptRaw_message_getD s h16 (by omega)] at hunpad
  refine ⟨_, by rw [cbcDecResult_of_checks hk hm h0 h16, cbcDecrypt, hunpad, Option.elim_some], ?_, fun k hlt => ?_⟩
  · rw [List.length_take, hlen, s.message_length, Nat.min_eq_left (Nat.sub_le ..)]
  · rw [List.length_take] at hlt
    rw [List.getD_eq_getElem?_getD, List.getElem?_take_of_lt (by omega), ← List.getD_eq_getElem?_getD,
      cbcDecryptRaw_message_getD s h16 (by rw [hlen, s.message_length] at hlt; omega)]

end

end Sys2Proof.Machine

open Sys2Proof Sys2Proof.Machine Sys2Proof.Spec

/-- Settles O40: the padded length is `pad_length`, and the added bytes are what stands past the message. -/
theorem padAppendsItsLength : Obligations.PadAppendsItsLength := by
  refine ⟨fun m => ⟨pad_length m, ?_, length_lt_pad_length m, pad_take m, fun b hb => ?_⟩, rfl⟩
  · rw [pad_length, Nat.mul_mod_right]
  · rw [pad_drop] at hb
    rw [List.eq_of_mem_replicate hb, toNat_padByte]

/-- Settles O41: `unpad_eq_some_iff` holds for every string, and sixteen 0x10 bytes are the padded empty string. -/
theorem unpadAcceptsExactlyValidPadding : Obligations.UnpadAcceptsExactlyValidPadding :=
  ⟨fun m _ _ r => unpad_eq_some_iff m r, unpad_pad, unpad_pad []⟩

/-- Settles O42: one completion per result; the blocks of the output in DOUT are the blocks of the ciphertext. -/
theorem cbcEncChainsPaddedBlocks : Obligations.CbcEncChainsPaddedBlocks := by
  refine fun s _ => ⟨fun h => exec_error (i := .cbcEnc) (cbcResults_of_no_schedule h).1,
    fun hk hm => exec_error (i := .cbcEnc) (cbcResults_of_too_long hk hm).1, fun hk hm => ?_⟩
  have hlen : (cbcEncrypt s.rk s.nr.toNat s.iv s.message).length = 16 * paddedBlocks s.msgLen.toNat := by
    rw [cbcEncrypt_length, s.message_length, paddedBlocks]
  have hchain := cbcEncrypt_chain s.rk s.nr.toNat s.iv s.message
  rw [s.message_length] at hchain
  refine ⟨(s.writeOutput _).finish 0 0, exec_ok (i := .cbcEnc) (cbcEncResult_of_fits hk hm), ?_, ?_, fun k hle => ?_⟩
  · rw [← hlen]
    rfl
  · exact cbcChain_congr (fun j => blockAt_pad_message s)
      (fun j hj => (s.windowBlock_dout_writeOutput_finish _ 0 0 (by omega)).symm) hchain
  · rw [State.windowByte_dout_writeOutput_finish, if_neg (by omega)]

/-- Settles O43: one completion per result; the padding of the decrypted string is that of its bytes as the rules
give them. -/
theorem cbcDecRemovesValidPadding : Obligations.CbcDecRemovesValidPadding := by
  intro s _
  refine ⟨fun h => exec_error (i := .cbcDec) (cbcResults_of_no_schedule h).2,
    fun hk hm => exec_error (i := .cbcDec) (cbcResults_of_too_long hk hm).2,
    fun hk hm hlen => exec_error (i := .cbcDec) (cbcDecResult_of_bad_length hk hm hlen),
    fun hk hm h0 h16 hpad => exec_error (i := .cbcDec) (cbcDecResult_of_bad_padding hk hm h0 h16 hpad),
    fun hk hm h0 h16 hpad => ?_⟩
  obtain ⟨r, hr, hlen, hbytes⟩ := cbcDecResult_of_padding hk hm h0 h16 hpad
  refine ⟨(s.writeOutput r).finish 0 0, exec_ok (i := .cbcDec) hr, ?_, fun k hlt => ?_, fun k hle => ?_⟩
  · rw [← hlen]
    rfl
  · rw [State.windowByte_dout_writeOutput_finish, if_pos (hlen ▸ hlt), hbytes k (hlen ▸ hlt)]
  · rw [State.windowByte_dout_writeOutput_finish, if_neg (by omega)]

/-- Settles O45: a plaintext block depends on its own ciphertext block and on the one before it alone. -/
theorem cbcErrorPropagation : Obligations.CbcErrorPropagation := by
  intro rk nr iv x x' j _ hsame
  refine ⟨fun k hj hj' => ?_, fun y z hy hz => ?_, fun y y' z z' hy hy' hz hz' => ?_⟩
  · rw [cbcDecBlocks_getElem?, cbcDecBlocks_getElem?, hsame k hj]
    by_cases h0 : k = 0
    · simp only [h0, if_true]
    · simp only [List.getD_eq_getElem?_getD, hsame (k - 1) (by omega)]
  · rw [cbcDecBlocks_getElem?, hy] at hz
    exact (Option.some.inj hz).symm
  · rw [cbcDecBlocks_getElem?, Option.map_eq_some_iff] at hz hz'
    obtain ⟨w, hw, rfl⟩ := hz
    obtain ⟨w', hw', rfl⟩ := hz'
    obtain rfl : w = w' := Option.some.inj (hw.symm.trans ((hsame (j + 1) (by omega)).trans hw'))
    simp only [Nat.add_eq_zero_iff, one_ne_zero, and_false, if_false, Nat.add_sub_cancel, List.getD_eq_getElem?_getD,
      hy, hy', Option.getD_some, xorBytes_xorBytes_cancel_left]

end

section
/-! Hash and key derivation (44_hash_kdf.md R505, R510 to R520): the key block of HMAC, the bytes of a PBKDF2 block,
which result KDF has, and the known answers. -/

namespace Sys2Proof.Machine

open Sys2Proof.Spec

/-! ## The key block of HMAC (R510) -/

/-- A key of at most one block is extended by zeros. -/
theorem hmacKey_eq_map_getD {k : List Byte} (h : k.length ≤ 64) :
    hmacKey k = (List.range 64).map fun i => k.getD i 0 := by
  refine List.ext_getElem (by simp [hmacKey_length]) fun i hi _ => ?_
  rw [hmacKey_length] at hi
  simp only [hmacKey, if_neg (Nat.not_lt.2 h), List.getElem_append, List.getElem_replicate, List.getElem_map,
    List.getElem_range]
  split
  next hik => rw [List.getD_eq_getElem _ _ hik]
  next hik => rw [List.getD_eq_default _ _ (Nat.le_of_not_lt hik)]

/-- A longer key gives the key block of its digest. -/
theorem hmacKey_of_length_gt {k : List Byte} (h : 64 < k.length) : hmacKey k = hmacKey (sha256 k).toList := by
  simp [hmacKey, h]

/-! ## The bytes of a PBKDF2 block (R512) -/

/-- A block number below 256 in four big-endian bytes. -/
theorem be32_ofNat_of_lt {i : Nat} (h : i < 256) : be32 (BitVec.ofNat 32 i) = [0, 0, 0, BitVec.ofNat 8 i] := by
  have hlane (j : Nat) : lane (BitVec.ofNat 32 i) j = BitVec.ofNat 8 (i / 2 ^ (8 * j)) := by
    refine BitVec.eq_of_toNat_eq ?_
    rw [lane, BitVec.extractLsb'_toNat, BitVec.toNat_ofNat, BitVec.toNat_ofNat, Nat.mod_eq_of_lt (a := i) (by omega),
      Nat.shiftRight_eq_div_pow]
  simp [be32, hlane, Nat.div_eq_of_lt, show i < 65536 by omega, show i < 16777216 by omega, h]

section
variable (p s : List Byte) (i : Nat)

theorem prfXor_succ (c k : Nat) :
    prfXor p s i (c + 1) k = prfXor p s i c k ^^^ ((prfChain p s i c)[k]?).getD 0 := by
  rw [prfXor, List.range_succ, List.map_append, List.foldl_append]
  rfl

theorem prfXor_one (k : Nat) : prfXor p s i 1 k = ((prfChain p s i 0)[k]?).getD 0 := BitVec.zero_xor

/-- From the U after j repetitions on, the loop completes the exclusive-or it has begun. -/
theorem pbkdf2Loop_prfChain_getElem? (n j k : Nat) (t : Digest) (hk : k < 32)
    (ht : (t[k]?).getD 0 = prfXor p s i (j + 1) k) :
    ((pbkdf2Loop p n (prfChain p s i j) t)[k]?).getD 0 = prfXor p s i (j + 1 + n) k := by
  induction n generalizing j t with
  | zero => exact ht
  | succ n ih =>
    have hnext : hmac p (prfChain p s i j).toList = prfChain p s i (j + 1) := rfl
    rw [pbkdf2Loop_succ, hnext, Nat.add_comm n, ← Nat.add_assoc]
    refine ih (j + 1) _ ?_
    rw [xorBytes_getElem? _ _ _ hk, Option.getD_some, ht, ← prfXor_succ]

theorem pbkdf2Block_getElem? {i c k : Nat} (hi : i < 256) (hc : 0 < c) (hk : k < 32) :
    (pbkdf2Block p s c i)[k]? = some (prfXor p s i c k) := by
  have h := pbkdf2Loop_prfChain_getElem? p s i (c - 1) 0 k (prfChain p s i 0) hk (prfXor_one p s i k).symm
  rw [Nat.zero_add, Nat.add_sub_cancel' hc, Vector.getElem?_eq_getElem hk] at h
  rw [pbkdf2Block, be32_ofNat_of_lt hi, Vector.getElem?_eq_getElem hk]
  exact congrArg some h

/-- The derived key material is T_1, followed by the first half of T_2 (R513). -/
theorem pbkdf2_48_getD {c k : Nat} (hc : 0 < c) (hk : k < 48) :
    (pbkdf2 p s c 48).getD k 0 = if k < 32 then prfXor p s 1 c k else prfXor p s 2 c (k - 32) := by
  rw [pbkdf2_of_48, List.getD_eq_getElem?_getD, List.getElem?_append, Vector.length_toList]
  split
  next h => rw [Vector.getElem?_toList, pbkdf2Block_getElem? p s (by decide) hc h, Option.getD_some]
  next h =>
    rw [List.getElem?_take_of_lt (by omega), Vector.getElem?_toList,
      pbkdf2Block_getElem? p s (by decide) hc (by omega), Option.getD_some]

/-- The three parts are cut from the derived key material as its blocks 0, 1 and 2 (R513). -/
theorem deriveKeys_eq_derivedKeys {c : Nat} (hc : 0 < c) : deriveKeys p s c = derivedKeys p s c := by
  have hblocks : deriveKeys p s c =
      ⟨blockAt (pbkdf2 p s c 48) 0, blockAt (pbkdf2 p s c 48) 1, blockAt (pbkdf2 p s c 48) 2⟩ := rfl
  rw [hblocks, derivedKeys, DerivedKeys.mk.injEq]
  refine ⟨blockAt_eq_ofFn (f := prfXor p s 1 c) fun k hk => ?_,
    blockAt_eq_ofFn (f := fun k => prfXor p s 1 c (16 + k)) fun k hk => ?_,
    blockAt_eq_ofFn (f := prfXor p s 2 c) fun k hk => ?_⟩
  · rw [pbkdf2_48_getD p s hc (by omega), if_pos (by omega), Nat.mul_zero, Nat.zero_add]
  · rw [pbkdf2_48_getD p s hc (by omega), if_pos (by omega)]
  · rw [pbkdf2_48_getD p s hc (by omega), if_neg (by omega), Nat.add_sub_cancel_left]

end

/-! ## The result of KDF (R520) -/

section
variable {s : State}

theorem kdfResult_of_long_key (h : 32 < s.keyLen.toNat) : kdfResult s = .error .invalidKeyLength := if_pos h

variable (hk : s.keyLen.toNat ≤ 32)
include hk

theorem kdfResult_of_no_iterations (hi : s.iter = 0) :
    kdfResult s = .error (.contractViolation .zeroIterations) := by
  rw [kdfResult, if_neg (Nat.not_lt.2 hk), if_pos hi]

theorem State.keyBytes_eq_password : s.keyBytes = password s := by
  rw [s.keyBytes_eq_map hk, password, windowBytes]
  simp only [Nat.zero_add]

theorem kdfResult_of_checks (hi : s.iter ≠ 0) :
    kdfResult s =
      .ok (s.withDerivedKeys (derivedKeys (password s) (windowBytes s .salt 0 16) s.iter.toNat)) := by
  have hiter : 0 < s.iter.toNat := by bv_omega
  have hsalt : s.salt.toList = windowBytes s .salt 0 16 := by
    rw [toList_eq_map, windowBytes]
    simp only [Nat.zero_add]
    rfl
  rw [kdfResult, if_neg (Nat.not_lt.2 hk), if_neg hi, State.keyBytes_eq_password hk, hsalt,
    deriveKeys_eq_derivedKeys _ _ hiter]

end

end Sys2Proof.Machine

open Sys2Proof.Machine

/-- Settles O48: a message's HMAC depends on its key through the key block alone. -/
theorem hmacIsTheNestedHash : Obligations.HmacIsTheNestedHash := by
  refine fun k m => ⟨fun h => ?_, fun h => ?_⟩
  · rw [hmac, hmacKey_eq_map_getD h, List.map_map, List.map_map]
    rfl
  · rw [hmac, hmacKey_of_length_gt h]
    rfl

/-- Settles O49: one completion per result. -/
theorem kdfWritesTheDerivedKeys : Obligations.KdfWritesTheDerivedKeys := fun _ =>
  ⟨fun h => exec_error (i := .kdf) (kdfResult_of_long_key h),
    fun hk hi => exec_error (i := .kdf) (kdfResult_of_no_iterations hk hi),
    fun hk hi => exec_ok (i := .kdf) (kdfResult_of_checks hk hi)⟩

/-- Settles O46: the kernel computes each of the five values (R505, R511, R515). -/
theorem hashKnownAnswers : Obligations.HashKnownAnswers := by
  refine ⟨?_, ?_, ?_, ?_, ?_⟩ <;> decide +kernel

end

section
/-! TAG_COMPUTE and TAG_VERIFY (45_mac.md R540 to R542): the constant-time comparison, the tag from the windows, and
which result each command has. -/

namespace Sys2Proof.Machine

open Sys2Proof.Spec

/-! ## The comparison of digests (R542) -/

theorem foldl_or_eq_zero_iff (l : List Byte) (a : Byte) :
    l.foldl (· ||| ·) a = 0 ↔ a = 0 ∧ l.Forall (· = 0) := by
  induction l generalizing a with
  | nil => simp
  | cons b l ih => rw [List.foldl_cons, ih, BitVec.ofNat_eq_ofNat, BitVec.or_eq_zero_iff, List.forall_cons, and_assoc]

/-- The differences of all 32 byte pairs, combined, are 0 only for equal digests. -/
theorem ctEqual_iff (a b : Digest) : ctEqual a b = true ↔ a = b := by
  have hlen : a.toList.length = b.toList.length := by rw [Vector.length_toList, Vector.length_toList]
  calc ctEqual a b = true
    _ ↔ (List.zipWith (· ^^^ ·) a.toList b.toList).Forall (· = 0) := by
      rw [ctEqual, beq_iff_eq, foldl_or_eq_zero_iff, and_iff_right rfl]
    _ ↔ a.toList = b.toList := by
      simp only [List.forall_zipWith hlen, BitVec.ofNat_eq_ofNat, BitVec.xor_eq_zero_iff, List.forall₂_eq_eq_eq]
    _ ↔ a = b := Vector.toList_inj

theorem ctEqual_eq_false_iff (a b : Digest) : ctEqual a b = false ↔ a ≠ b := by
  rw [← Bool.not_eq_true, ctEqual_iff]

/-! ## Operands read from their windows (R303, R304) -/

/-- A small window read in full is its field's value. -/
theorem windowBytes_eq_toList {s : State} {w : Window} {n : Nat} {v : Vector Byte n}
    (h : ∀ k, s.windowByte w k = (v[k]?).getD 0) : windowBytes s w 0 n = v.toList := by
  simp only [windowBytes, Nat.zero_add, h, toList_eq_map]

theorem State.message_eq_spec (s : State) : s.message = Spec.message s := by
  simp only [Spec.message, windowBytes, Nat.zero_add]
  rfl

theorem State.messageTag_eq (s : State) :
    s.messageTag = hmac (windowBytes s .dkAk 0 16) (windowBytes s .salt 0 16 ++ Spec.message s) := by
  rw [State.messageTag, s.message_eq_spec, windowBytes_eq_toList (v := s.dkAk) fun _ => rfl,
    windowBytes_eq_toList (v := s.salt) fun _ => rfl]

/-! ## The results of TAG_COMPUTE and TAG_VERIFY (R540, R541) -/

section
variable {s : State}

theorem tagResults_of_too_long (hm : ¬ MessageFits s) :
    tagComputeResult s = .error (.contractViolation .messageTooLong) ∧
      tagVerifyResult s = .error (.contractViolation .messageTooLong) := by
  rw [← s.messageTooLong_iff] at hm
  exact ⟨if_pos hm, if_pos hm⟩

variable (hm : MessageFits s)
include hm

theorem tagComputeResult_of_fits : tagComputeResult s = .ok (s.writeTag s.messageTag) := by
  rw [← s.messageTooLong_eq_false_iff] at hm
  rw [tagComputeResult, if_neg (by simp [hm])]

/-- Past its check, TAG_VERIFY's result is the comparison's. -/
theorem tagVerifyResult_of_fits :
    tagVerifyResult s = if s.tag = s.messageTag then .ok s else .error .integrityFailure := by
  rw [← s.messageTooLong_eq_false_iff] at hm
  rw [tagVerifyResult, if_neg (by simp [hm])]
  by_cases he : s.tag = s.messageTag
  · rw [if_neg (by simp [(ctEqual_iff _ _).2 he.symm]), if_pos he]
  · rw [if_pos (by simp [(ctEqual_eq_false_iff _ _).2 (Ne.symm he)]), if_neg he]

end

end Sys2Proof.Machine

open Sys2Proof.Machine

/-- Settles O51: one completion per result; the tag is that of the windows, and the comparison is equality. -/
theorem tagCommandsComputeAndCompareTheHmac : Obligations.TagCommandsComputeAndCompareTheHmac := by
  intro s expected
  have htag : s.messageTag = expected := s.messageTag_eq
  rw [← htag]
  refine ⟨fun h => ?_, fun hm =>
    ⟨exec_ok (i := .tagCompute) (tagComputeResult_of_fits hm), fun he => ?_, fun hne => ?_⟩⟩
  · obtain ⟨hcompute, hverify⟩ := tagResults_of_too_long h
    exact ⟨exec_error (i := .tagCompute) hcompute, exec_error (i := .tagVerify) hverify⟩
  · exact exec_ok (i := .tagVerify) ((tagVerifyResult_of_fits hm).trans (if_pos he))
  · exact exec_error (i := .tagVerify) ((tagVerifyResult_of_fits hm).trans (if_neg hne))

end

section
/-! Validation and completion of AE_ENCRYPT and AE_DECRYPT (46_ae_api.md R561, R564, R566): which check fails first,
what a failed check leaves, and the schedule after every outcome. -/

namespace Sys2Proof.Machine

open Sys2Proof.Spec

/-! ## The checks of AE_ENCRYPT and AE_DECRYPT (R561, R564) -/

theorem State.keyLen_ne_zero_of_valid {s : State} (h : KeyLenValid s) : s.keyLen ≠ 0 := by
  obtain h | h | h := h <;> simp [h]

theorem State.messageNotAscii_eq_false_iff (s : State) :
    s.messageNotAscii = false ↔ ∀ k < s.msgLen.toNat, (s.windowByte .din k).toNat ≤ 0x7F := by
  simp only [State.messageNotAscii, State.message, List.any_map, List.any_eq_false, List.mem_range, Function.comp_apply,
    decide_eq_true_eq, Nat.not_lt]
  rfl

section
variable {s : State}

/-! Steps 1 to 4 are the same in both commands, so one lemma says both. -/

theorem aeChecks_of_keyLen_eq_zero (h : s.keyLen = 0) :
    aeEncryptCheck s = some .emptyKey ∧ aeDecryptCheck s = some .emptyKey := ⟨if_pos h, if_pos h⟩

theorem aeChecks_of_not_valid (h0 : s.keyLen ≠ 0) (hv : ¬ KeyLenValid s) :
    aeEncryptCheck s = some .invalidKeyLength ∧ aeDecryptCheck s = some .invalidKeyLength := by
  rw [← s.keyLenValid_iff, Bool.not_eq_true] at hv
  simp only [aeEncryptCheck, aeDecryptCheck, h0, hv, if_false, Bool.not_false, if_true, and_self]

variable (hv : KeyLenValid s)
include hv

theorem aeChecks_of_empty_message (hm0 : s.msgLen = 0) :
    aeEncryptCheck s = some .emptyMessage ∧ aeDecryptCheck s = some .emptyMessage := by
  have h0 := State.keyLen_ne_zero_of_valid hv
  rw [← s.keyLenValid_iff] at hv
  simp only [aeEncryptCheck, aeDecryptCheck, h0, hv, hm0, if_false, Bool.not_true, Bool.false_eq_true, if_true,
    and_self]

variable (hm0 : s.msgLen ≠ 0)
include hm0

theorem aeChecks_of_too_long (hm : ¬ MessageFits s) :
    aeEncryptCheck s = some (.contractViolation .messageTooLong) ∧
      aeDecryptCheck s = some (.contractViolation .messageTooLong) := by
  have h0 := State.keyLen_ne_zero_of_valid hv
  rw [← s.keyLenValid_iff] at hv
  rw [← s.messageTooLong_iff] at hm
  simp only [aeEncryptCheck, aeDecryptCheck, h0, hv, hm0, hm, if_false, Bool.not_true, Bool.false_eq_true, if_true,
    and_self]

variable (hm : MessageFits s)
include hm

/-- Past step 4, steps 5 and 6 of each command are left. -/
theorem aeChecks_of_fits :
    aeEncryptCheck s =
      (if s.messageNotAscii then some .unsupportedMessageType
      else if s.iter = 0 then some (.contractViolation .zeroIterations) else none) ∧
    aeDecryptCheck s =
      (if s.msgLen.toNat % 16 ≠ 0 ∨ s.msgLen.toNat < 64 then some (.contractViolation .malformedBlob)
      else if s.iter = 0 then some (.contractViolation .zeroIterations) else none) := by
  have h0 := State.keyLen_ne_zero_of_valid hv
  rw [← s.keyLenValid_iff] at hv
  rw [← s.messageTooLong_eq_false_iff] at hm
  simp only [aeEncryptCheck, aeDecryptCheck, h0, hv, hm0, hm, if_false, Bool.not_true, Bool.false_eq_true, and_self]

theorem aeEncryptCheck_of_not_ascii (ha : ¬ ∀ k < s.msgLen.toNat, (s.windowByte .din k).toNat ≤ 0x7F) :
    aeEncryptCheck s = some .unsupportedMessageType := by
  rw [← s.messageNotAscii_eq_false_iff, Bool.not_eq_false] at ha
  rw [(aeChecks_of_fits hv hm0 hm).1, if_pos ha]

theorem aeEncryptCheck_of_no_iterations (ha : ∀ k < s.msgLen.toNat, (s.windowByte .din k).toNat ≤ 0x7F)
    (hi : s.iter = 0) : aeEncryptCheck s = some (.contractViolation .zeroIterations) := by
  rw [← s.messageNotAscii_eq_false_iff] at ha
  rw [(aeChecks_of_fits hv hm0 hm).1, if_neg (by simp [ha]), if_pos hi]

theorem aeDecryptCheck_of_malformed_blob (hlen : s.msgLen.toNat % 16 ≠ 0 ∨ s.msgLen.toNat < 64) :
    aeDecryptCheck s = some (.contractViolation .malformedBlob) := by
  rw [(aeChecks_of_fits hv hm0 hm).2, if_pos hlen]

theorem aeDecryptCheck_of_no_iterations (h16 : s.msgLen.toNat % 16 = 0) (h64 : 64 ≤ s.msgLen.toNat)
    (hi : s.iter = 0) : aeDecryptCheck s = some (.contractViolation .zeroIterations) := by
  rw [(aeChecks_of_fits hv hm0 hm).2, if_neg (by omega), if_pos hi]

end

/-! ## What a failed check leaves (R561, R564, R604) -/

theorem exec_aeEncrypt_of_check {s : State} (hs : Bool) {e : CmdError} (h : aeEncryptCheck s = some e) :
    exec (.aeEncrypt hs) s = .next (aeFailed s e.code e.detail) := by
  have hr : aeEncryptResult hs s = .error e := by rw [aeEncryptResult, h]
  exact exec_error (i := .aeEncrypt hs) hr

theorem exec_aeDecrypt_of_check {s : State} {e : CmdError} (h : aeDecryptCheck s = some e) :
    exec .aeDecrypt s = .next (aeFailed s e.code e.detail) := by
  have hr : aeDecryptResult s = .error e := by rw [aeDecryptResult, h]
  exact exec_error (i := .aeDecrypt) hr

/-! ## The schedule after an AE command (R566) -/

/-- An AE command ends with the schedule cleared, in success and in failure. -/
theorem exec_ae_clearSchedule {i : Instr} {s t : State} (hi : i = .aeDecrypt ∨ ∃ hs, i = .aeEncrypt hs)
    (h : exec i s = .next t) :
    ∃ (u : State) (code detail : BitVec 4), t = u.clearSchedule.finish code detail := by
  have halways : alwaysOf i = State.clearSchedule := by obtain rfl | ⟨hs, rfl⟩ := hi <;> rfl
  obtain ⟨u, -, rfl⟩ | ⟨e, -, rfl⟩ := exec_cases h
  · exact ⟨u, 0, 0, by rw [halways]⟩
  · exact ⟨onErrorOf i s, e.code, e.detail, by rw [halways]⟩

/-- Without a schedule, every block and CBC command raises CONTRACT_VIOLATION detail 1 (R455, R456, R480, R481). -/
theorem resultOf_of_no_schedule {j : Instr} {s : State}
    (hj : j = .encBlock ∨ j = .decBlock ∨ j = .cbcEnc ∨ j = .cbcDec) (h : s.ksValid = false) :
    resultOf j s = .error (.contractViolation .noKeySchedule) := by
  obtain rfl | rfl | rfl | rfl := hj
  · exact blockResult_of_no_schedule cipher h
  · exact blockResult_of_no_schedule invCipher h
  · exact (cbcResults_of_no_schedule h).1
  · exact (cbcResults_of_no_schedule h).2

/-- A command whose result is an error shows it in STATUS (R601, R602). -/
theorem exec_error_status {j : Instr} {s u : State} {e : CmdError} (hr : resultOf j s = .error e)
    (h : exec j s = .next u) : u.errCode = e.code ∧ u.errDetail = e.detail := by
  rw [exec_error hr, Host.Outcome.next.injEq] at h
  subst h
  exact ⟨State.finish_errCode .., State.finish_errDetail ..⟩

end Sys2Proof.Machine

open Sys2Proof.Machine

/-- Settles O52: one failed check per clause, and a failed check leaves `aeFailed`. -/
theorem aeEncryptValidationOrder : Obligations.AeEncryptValidationOrder := fun _ hs =>
  ⟨fun h0 => exec_aeEncrypt_of_check hs (aeChecks_of_keyLen_eq_zero h0).1,
    fun h0 hv => exec_aeEncrypt_of_check hs (aeChecks_of_not_valid h0 hv).1,
    fun hv hm0 => exec_aeEncrypt_of_check hs (aeChecks_of_empty_message hv hm0).1,
    fun hv hm0 hm => exec_aeEncrypt_of_check hs (aeChecks_of_too_long hv hm0 hm).1,
    fun hv hm0 hm ha => exec_aeEncrypt_of_check hs (aeEncryptCheck_of_not_ascii hv hm0 hm ha),
    fun hv hm0 hm ha hi => exec_aeEncrypt_of_check hs (aeEncryptCheck_of_no_iterations hv hm0 hm ha hi)⟩

/-- Settles O53: one failed check per clause; a length of at least 64 is not 0. -/
theorem aeDecryptValidationOrder : Obligations.AeDecryptValidationOrder := by
  refine fun s => ⟨fun h0 => exec_aeDecrypt_of_check (aeChecks_of_keyLen_eq_zero h0).2,
    fun h0 hv => exec_aeDecrypt_of_check (aeChecks_of_not_valid h0 hv).2,
    fun hv hm0 => exec_aeDecrypt_of_check (aeChecks_of_empty_message hv hm0).2,
    fun hv hm0 hm => exec_aeDecrypt_of_check (aeChecks_of_too_long hv hm0 hm).2,
    fun hv hm0 hm hlen => exec_aeDecrypt_of_check (aeDecryptCheck_of_malformed_blob hv hm0 hm hlen),
    fun hv hm h16 h64 hi => ?_⟩
  have hm0 : s.msgLen ≠ 0 := by bv_omega
  exact exec_aeDecrypt_of_check (aeDecryptCheck_of_no_iterations hv hm0 hm h16 h64 hi)

/-- Settles O56: the completion clears the schedule whatever the result, and without KS_VALID each of the four
commands has one result. -/
theorem aeCommandsClearTheSchedule : Obligations.AeCommandsClearTheSchedule := by
  intro i s t hi h
  obtain ⟨v, code, detail, rfl⟩ := exec_ae_clearSchedule hi h
  exact ⟨fun k => Vector.getElem_replicate k.isLt, rfl, rfl,
    fun j u hj hu => exec_error_status (resultOf_of_no_schedule hj rfl) hu⟩

end

section
/-! Accept, rejection and failure of a command (60_exceptions.md R603, R604, R610, R612): what a write to CMD does while
IDLE, and the one state that a command which raises leaves. -/

namespace Sys2Proof.Machine

open Sys2Proof.Spec

/-! ## Writes to CMD while IDLE (R610, R612) -/

theorem State.issue_of_ok {v : Word} {i : Instr} (h : decodeWord v = .ok i) (s : State) : s.issue v = s.accept v := by
  simp only [State.issue, h]

theorem State.issue_of_forall_ne_ok {v : Word} (h : ∀ i, decodeWord v ≠ .ok i) (s : State) :
    s.issue v = s.rejectCommand := by
  cases hv : decodeWord v with
  | ok i => exact absurd hv (h i)
  | error e => simp only [State.issue, hv]

/-- The write to CMD itself, whatever the word (R103). -/
theorem State.writeWord_cmd {s : State} (hs : s.seq = .idle) (v : Word) : s.writeWord 0x004 v = s.issue v := by
  rw [State.writeWord_of_idle hs, (targetAt_eq_register_iff s.params 0x004 .cmd).2 rfl, State.writeIdle]

/-! ## The state a failed command leaves (R603, R604) -/

/-- An ERR_CODE other than 0 comes from an error that the command raised. -/
theorem exec_failed {i : Instr} {s t : State} (h : exec i s = .next t) (hcode : t.errCode ≠ 0) :
    t = (alwaysOf i (onErrorOf i s)).finish t.errCode t.errDetail := by
  obtain ⟨u, -, rfl⟩ | ⟨e, -, rfl⟩ := exec_cases h
  · exact absurd (State.finish_errCode ..) hcode
  · rw [State.finish_errCode, State.finish_errDetail]

end Sys2Proof.Machine

open Sys2Proof.Machine

/-- Settles O5: the write reaches CMD, which accepts or rejects by the decoder's answer. -/
theorem commandWriteIsAcceptedOrRejected : Obligations.CommandWriteIsAcceptedOrRejected := by
  intro s rest v hs _ hturns
  rw [step_writeTurn (by decide) (by decide) hturns, State.writeWord_cmd hs]
  refine ⟨fun i hv => ?_, fun hv => ?_⟩
  · rw [State.issue_of_ok hv]; rfl
  · rw [State.issue_of_forall_ne_ok hv]; rfl

/-- Settles O8: a failure leaves the state of `exec_failed`, which each command's own part spells out. -/
theorem failedCommandWritesNoOutput : Obligations.FailedCommandWritesNoOutput := by
  intro i s t h hcode
  have hfailed := exec_failed h hcode
  cases i <;> exact hfailed

end

section
/-! The decoder as the inverse of the encoder, and its domain (30_encoding.md R300 to R302): a word is its three
fields, so a word whose fields are a command's is that command's word. -/

namespace Sys2Proof

/-- A command word is its OP, HS and RSV (R300). -/
theorem CommandWord.eq_of_fields {v w : Word} (hop : CommandWord.op v = CommandWord.op w)
    (hhs : CommandWord.hs v = CommandWord.hs w) (hrsv : CommandWord.rsv v = CommandWord.rsv w) : v = w := by
  refine BitVec.eq_of_getLsbD_eq fun i hi => ?_
  rcases Nat.lt_trichotomy i 8 with hlow | rfl | hhigh
  · simpa [CommandWord.op, BitVec.getLsbD_extractLsb', hlow] using congrArg (BitVec.getLsbD · i) hop
  · exact hhs
  · simpa [CommandWord.rsv, BitVec.getLsbD_extractLsb', show i - 9 < 23 by omega, show 9 + (i - 9) = i by omega]
      using congrArg (BitVec.getLsbD · (i - 9)) hrsv

/-- An OP selects its own command alone, and only AE_ENCRYPT takes the HS given (R301). -/
theorem eq_of_decodeOp_eq_some {op : Byte} {hs : Bool} {i : Instr} (h : decodeOp op hs = some i) :
    op = i.op ∧ i.hs = (op == 0x09 && hs) := by
  have hop : op = BitVec.ofNat 8 op.toNat := BitVec.eq_of_toNat_eq (by simp)
  unfold decodeOp at h
  split at h
  case h_11 => cases h
  all_goals
    rename_i hn
    rw [hn] at hop
    subst hop
    cases h
    exact ⟨rfl, rfl⟩

/-- The OP values that R301 assigns are the ones that select a command, with either HS. -/
theorem exists_decodeOp_eq_some_iff (op : Byte) (hs : Bool) :
    (∃ i, decodeOp op hs = some i) ↔ 1 ≤ op.toNat ∧ op.toNat ≤ 0x0A := by
  constructor
  · rintro ⟨i, h⟩
    rw [(eq_of_decodeOp_eq_some h).1]
    cases i <;> simp [Instr.op]
  · rintro ⟨hlow, hhigh⟩
    unfold decodeOp
    interval_cases op.toNat <;> exact ⟨_, rfl⟩

/-- What the decoder checks: OP selects the command, RSV is 0, and HS is 0 or OP is AE_ENCRYPT's (R302). -/
theorem decodeWord_eq_ok_iff (w : Word) (i : Instr) :
    decodeWord w = .ok i ↔
      decodeOp (CommandWord.op w) (CommandWord.hs w) = some i ∧ CommandWord.rsv w = 0 ∧
        (CommandWord.hs w = false ∨ CommandWord.op w = 0x09) := by
  unfold decodeWord
  cases decodeOp (CommandWord.op w) (CommandWord.hs w) with
  | none => simp
  | some j =>
    dsimp only
    split_ifs with hrsv hsalt
    · exact ⟨nofun, fun ⟨_, h, _⟩ => absurd h hrsv⟩
    · obtain ⟨hhs, hop⟩ := hsalt
      exact ⟨nofun, fun ⟨_, _, h⟩ => h.elim (fun h => by simp [h] at hhs) (absurd · hop)⟩
    · rw [not_and_or, Bool.not_eq_true, not_not] at hsalt
      rw [Except.ok.injEq, Option.some.injEq]
      exact ⟨fun h => ⟨h, not_not.1 hrsv, hsalt⟩, And.left⟩

/-- A word that decodes to a command is that command's word. -/
theorem eq_encode_of_decodeWord {w : Word} {i : Instr} (h : decodeWord w = .ok i) : w = encode i := by
  obtain ⟨hdecode, hrsv, hsalt⟩ := (decodeWord_eq_ok_iff w i).1 h
  obtain ⟨hop, hhs⟩ := eq_of_decodeOp_eq_some hdecode
  obtain ⟨hop', hhs', hrsv'⟩ := CommandWord.fields_encode i
  refine CommandWord.eq_of_fields (hop.trans hop'.symm) ?_ (hrsv.trans hrsv'.symm)
  rw [hhs', hhs]
  obtain hsalt | hsalt := hsalt <;> simp [hsalt]

/-- The words that decode are those that meet the three conditions of R302, said of their bits. -/
theorem exists_decodeWord_eq_ok_iff (w : Word) :
    (∃ i, decodeWord w = .ok i) ↔
      (1 ≤ (CommandWord.op w).toNat ∧ (CommandWord.op w).toNat ≤ 0x0A) ∧ CommandWord.rsv w = 0 ∧
        (CommandWord.hs w = false ∨ CommandWord.op w = 0x09) := by
  simp only [decodeWord_eq_ok_iff, exists_and_right, exists_decodeOp_eq_some_iff]

/-- `legal` of R302 is the decoder's domain. -/
theorem CommandWord.legal_iff (w : Word) : CommandWord.legal w = true ↔ ∃ i, decodeWord w = .ok i := by
  rw [exists_decodeWord_eq_ok_iff]
  simp only [CommandWord.legal, CommandWord.opAssigned, CommandWord.rsvZero, CommandWord.hsAllowed, Bool.and_eq_true,
    Bool.or_eq_true, decide_eq_true_eq, beq_iff_eq, Bool.not_eq_true', and_assoc]

end Sys2Proof

open Sys2Proof

/-- Settles O2: a command's word decodes to it, and a word that decodes has the fields of its command's word. -/
theorem decodeIsTheInverseOfEncode : Obligations.DecodeIsTheInverseOfEncode := fun _ i =>
  ⟨eq_encode_of_decodeWord, fun h => h ▸ decodeWord_encode i⟩

/-- Settles O3: the decoder's three checks are the three conditions on the word's bits. -/
theorem legalWordsAndOnlyThoseDecode : Obligations.LegalWordsAndOnlyThoseDecode := exists_decodeWord_eq_ok_iff

end

section
/-! What the ten commands can do (60_exceptions.md R600 to R606; 30_encoding.md R303): the errors each can raise, what
each commits when it succeeds, and with that the frame of all ten. -/

namespace Sys2Proof.Machine

open Sys2Proof.Spec

/-! ## The errors of each command (R606) -/

/-- The errors that the table of R606 gives each command. -/
def errorsOf : Instr → List CmdError
  | .keyExpand => [.emptyKey, .invalidKeyLength]
  | .encBlock | .decBlock => [.contractViolation .noKeySchedule]
  | .cbcEnc => [.contractViolation .noKeySchedule, .contractViolation .messageTooLong]
  | .cbcDec => [.contractViolation .noKeySchedule, .contractViolation .messageTooLong,
      .contractViolation .badCiphertextLength, .paddingError]
  | .kdf => [.invalidKeyLength, .contractViolation .zeroIterations]
  | .tagCompute => [.contractViolation .messageTooLong]
  | .tagVerify => [.contractViolation .messageTooLong, .integrityFailure]
  | .aeEncrypt _ => [.emptyKey, .invalidKeyLength, .emptyMessage, .contractViolation .messageTooLong,
      .unsupportedMessageType, .contractViolation .zeroIterations]
  | .aeDecrypt => [.emptyKey, .invalidKeyLength, .emptyMessage, .contractViolation .messageTooLong,
      .contractViolation .malformedBlob, .contractViolation .zeroIterations, .integrityFailure, .paddingError]

theorem aeEncryptCheck_mem {s : State} {e : CmdError} (h : aeEncryptCheck s = some e) (hs : Bool) :
    e ∈ errorsOf (.aeEncrypt hs) := by
  unfold aeEncryptCheck at h
  split_ifs at h <;> cases h <;> simp [errorsOf]

theorem aeDecryptCheck_mem {s : State} {e : CmdError} (h : aeDecryptCheck s = some e) : e ∈ errorsOf .aeDecrypt := by
  unfold aeDecryptCheck at h
  split_ifs at h <;> cases h <;> decide

/-- A blob that does not open fails by its tag or by its padding (R565). -/
theorem aeOpen_error {p : List Byte} {n : Nat} {blob : List Byte} {e : CmdError} (h : aeOpen p n blob = .error e) :
    e = .integrityFailure ∨ e = .paddingError := by
  unfold aeOpen at h
  dsimp only at h
  split_ifs at h
  · exact .inl (Except.error.inj h).symm
  · split at h
    · exact .inr (Except.error.inj h).symm
    · cases h

theorem aeDecryptResult_error_mem {s : State} {e : CmdError} (h : aeDecryptResult s = .error e) :
    e ∈ errorsOf .aeDecrypt := by
  unfold aeDecryptResult at h
  split at h
  next hcheck =>
    cases h
    exact aeDecryptCheck_mem hcheck
  next =>
    cases hopen : aeOpen s.keyBytes s.iter.toNat s.message with
    | ok m => rw [hopen] at h; cases h
    | error e' =>
      rw [hopen] at h
      cases h
      obtain rfl | rfl := aeOpen_error hopen <;> decide

theorem cbcDecResult_error_mem {s : State} {e : CmdError} (h : cbcDecResult s = .error e) :
    e ∈ errorsOf .cbcDec := by
  unfold cbcDecResult at h
  split_ifs at h
  case neg =>
    split at h <;> cases h
    decide
  all_goals
    cases h
    decide

/-- A command raises no error but its own. -/
theorem resultOf_error_mem {i : Instr} {s : State} {e : CmdError} (h : resultOf i s = .error e) :
    e ∈ errorsOf i := by
  cases i with
  | aeEncrypt hs =>
    change aeEncryptResult hs s = .error e at h
    unfold aeEncryptResult at h
    split at h <;> cases h
    exact aeEncryptCheck_mem ‹_› hs
  | aeDecrypt => exact aeDecryptResult_error_mem h
  | cbcDec => exact cbcDecResult_error_mem h
  | _ =>
    simp only [resultOf, keyExpandResult, blockResult, cbcEncResult, kdfResult, tagComputeResult, tagVerifyResult] at h
    split_ifs at h <;> cases h <;> decide

end Sys2Proof.Machine

open Sys2Proof Sys2Proof.Machine

/-- Settles O6: success leaves the codes 0, and an error's own detail is 0 unless its code is 7. -/
theorem everyCommandCompletes : Obligations.EveryCommandCompletes := by
  intro i s
  refine ⟨_, exec_eq i s, ?_⟩
  cases resultOf i s with
  | ok u => exact ⟨rfl, rfl, rfl, fun _ => rfl⟩
  | error e =>
    refine ⟨rfl, rfl, rfl, fun hcode => ?_⟩
    obtain ⟨-, -, -, hdetail⟩ | ⟨h7, -, -⟩ := e.code_detail
    · exact hdetail
    · exact absurd h7 hcode

/-- Settles O7: the pairs of the table are (0, 0) and the pairs of the command's errors. -/
theorem outcomesOfEachCommand : Obligations.OutcomesOfEachCommand := by
  intro i s t h
  obtain ⟨u, -, rfl⟩ | ⟨e, he, rfl⟩ := exec_cases h
  · cases i <;> exact List.mem_cons_self
  · have hmem := resultOf_error_mem he
    rw [State.finish_errCode, State.finish_errDetail]
    clear he h
    revert e
    cases i <;> simp only [errorsOf] <;> decide

end

section
/-! What the ten commands write and read (30_encoding.md R303, R304; 10_state.md): what each commits when it succeeds,
the frame that follows for all ten, and that a command sees no byte past its length registers. -/

namespace Sys2Proof.Machine

open Sys2Proof.Spec

/-! ## Commits (R303) -/

/-- A successful command i takes s to u by its own commit and by nothing else. -/
def Commits (i : Instr) (s u : State) : Prop :=
  match i with
  | .keyExpand => KeyLenValid s ∧ u = s.withSchedule
  | .encBlock | .decBlock => ∃ b, u = s.writeBlockOut b
  | .cbcEnc | .cbcDec | .aeDecrypt => ∃ bs, u = s.writeOutput bs
  | .kdf => ∃ d, u = s.withDerivedKeys d
  | .tagCompute => ∃ d, u = s.writeTag d
  | .tagVerify => u = s
  | .aeEncrypt hs => ∃ bs, u = s.writeBlob bs (s.drawsAfter hs)

theorem commits_of_resultOf {i : Instr} {s u : State} (h : resultOf i s = .ok u) : Commits i s u := by
  cases i with
  | keyExpand =>
    obtain ⟨hv, hu⟩ := keyExpandResult_ok h
    exact ⟨s.keyLenValid_iff.1 hv, hu⟩
  | encBlock | decBlock => exact ⟨_, (blockResult_ok h).2⟩
  | cbcEnc =>
    obtain ⟨-, -, hu⟩ := cbcEncResult_ok h
    exact ⟨_, hu⟩
  | cbcDec =>
    obtain ⟨-, -, -, -, m, -, hu⟩ := cbcDecResult_ok h
    exact ⟨m, hu⟩
  | kdf =>
    obtain ⟨-, -, hu⟩ := kdfResult_ok h
    exact ⟨_, hu⟩
  | tagCompute => exact ⟨_, (tagComputeResult_ok h).2⟩
  | tagVerify =>
    obtain ⟨-, -, hu⟩ := tagVerifyResult_ok h
    exact hu
  | aeEncrypt hs => exact ⟨_, (aeEncryptResult_ok h).2⟩
  | aeDecrypt =>
    obtain ⟨-, m, -, hu⟩ := aeDecryptResult_ok h
    exact ⟨m, hu⟩

/-! ## Operands (R303, R304) -/

/-- The state with other contents of KEY and DIN. -/
def State.withInputs (key : Vector Byte 32) (din : Memory) (s : State) : State := { s with key := key, din := din }

section
variable (key : Vector Byte 32) (din : Memory) (s : State)

@[simp] theorem State.withInputs_iter : (s.withInputs key din).iter = s.iter := rfl
@[simp] theorem State.withInputs_iv : (s.withInputs key din).iv = s.iv := rfl
@[simp] theorem State.withInputs_tag : (s.withInputs key din).tag = s.tag := rfl
@[simp] theorem State.withInputs_rk : (s.withInputs key din).rk = s.rk := rfl
@[simp] theorem State.withInputs_nr : (s.withInputs key din).nr = s.nr := rfl

end

section
variable {s : State} {key : Vector Byte 32} {din : Memory} (hmsg : (s.withInputs key din).message = s.message)
include hmsg

theorem aeChecks_withInputs :
    aeEncryptCheck (s.withInputs key din) = aeEncryptCheck s ∧
      aeDecryptCheck (s.withInputs key din) = aeDecryptCheck s := by
  have hascii : (s.withInputs key din).messageNotAscii = s.messageNotAscii := by
    rw [State.messageNotAscii, hmsg, State.messageNotAscii]
  constructor
  · rw [aeEncryptCheck, hascii]
    rfl
  · rfl

variable (hkey : (s.withInputs key din).keyBytes = s.keyBytes)
include hkey

/-- A command reads KEY and DIN through the key and the message alone, and writes neither. -/
theorem resultOf_withInputs (i : Instr) :
    resultOf i (s.withInputs key din) = (resultOf i s).map (State.withInputs key din) := by
  have map_ite (b : Prop) [Decidable b] := apply_ite (Except.map (ε := CmdError) (State.withInputs key din)) b
  have htag : (s.withInputs key din).messageTag = s.messageTag := by rw [State.messageTag, hmsg]; rfl
  cases i with
  | keyExpand =>
    simp only [resultOf, keyExpandResult, State.withSchedule, hkey, map_ite]
    rfl
  | encBlock | decBlock =>
    simp only [resultOf, blockResult, map_ite]
    rfl
  | cbcEnc =>
    simp only [resultOf, cbcEncResult, hmsg, map_ite]
    rfl
  | cbcDec =>
    simp only [resultOf, cbcDecResult, hmsg, map_ite, State.withInputs_rk, State.withInputs_nr, State.withInputs_iv]
    cases cbcDecrypt s.rk s.nr.toNat s.iv s.message <;> rfl
  | kdf =>
    simp only [resultOf, kdfResult, hkey, map_ite]
    rfl
  | tagCompute =>
    simp only [resultOf, tagComputeResult, htag, map_ite]
    rfl
  | tagVerify =>
    simp only [resultOf, tagVerifyResult, htag, State.withInputs_tag, map_ite]
    rfl
  | aeEncrypt hs =>
    simp only [resultOf, aeEncryptResult, aeChecks_withInputs hmsg, State.blob, hkey, hmsg]
    cases aeEncryptCheck s <;> rfl
  | aeDecrypt =>
    simp only [resultOf, aeDecryptResult, aeChecks_withInputs hmsg, hkey, hmsg, State.withInputs_iter]
    cases aeDecryptCheck s with
    | some e => rfl
    | none => cases aeOpen s.keyBytes s.iter.toNat s.message <;> rfl

theorem exec_withInputs {i : Instr} {t : State} (h : exec i s = .next t) :
    exec i (s.withInputs key din) = .next (t.withInputs key din) := by
  have hresult := resultOf_withInputs hmsg hkey i
  obtain ⟨u, hu, rfl⟩ | ⟨e, he, rfl⟩ := exec_cases h
  · rw [hu] at hresult
    rw [exec_ok hresult]
    cases i <;> rfl
  · rw [he] at hresult
    rw [exec_error hresult]
    cases i <;> rfl

end

/-! ## Output (R115, R125) -/

theorem alwaysOf_output (i : Instr) (s : State) :
    (alwaysOf i s).dout = s.dout ∧ (alwaysOf i s).outLen = s.outLen := by
  cases i <;> exact ⟨rfl, rfl⟩

theorem onErrorOf_output (i : Instr) (s : State) :
    (onErrorOf i s).dout = s.dout ∧ ((onErrorOf i s).outLen = s.outLen ∨ (onErrorOf i s).outLen = 0) := by
  cases i <;> simp [onErrorOf]

/-- What a command does to DOUT and OUT_LEN: it stores an output that fits, with its length, or stores nothing and
keeps OUT_LEN or clears it. -/
theorem exec_output {i : Instr} {s t : State} (h : exec i s = .next t) :
    (t.dout = s.dout ∧ (t.outLen = s.outLen ∨ t.outLen = 0)) ∨
      ∃ bs, t.dout = s.dout.storeFrom 0 bs ∧ t.outLen = BitVec.ofNat 32 bs.length ∧
        bs.length ≤ s.params.doutBytes := by
  obtain ⟨u, hu, rfl⟩ | ⟨e, he, rfl⟩ := exec_cases h
  · rw [State.finish_dout, State.finish_outLen, (alwaysOf_output i u).1, (alwaysOf_output i u).2]
    exact (resultOf_ok_dout hu).imp_left fun ⟨hdout, houtLen⟩ => ⟨hdout, .inl houtLen⟩
  · rw [State.finish_dout, State.finish_outLen, (alwaysOf_output ..).1, (alwaysOf_output ..).2]
    exact .inl (onErrorOf_output i s)

/-- DOUT's size is no more than 65536 (R7), and so an output's length is OUT_LEN's value. -/
theorem toNat_outLen {p : Params} (hp : p.wf = true) {n : Nat} (hn : n ≤ p.doutBytes) :
    (BitVec.ofNat 32 n).toNat = n := by
  simp only [Params.wf, Bool.and_eq_true, decide_eq_true_eq] at hp
  obtain ⟨-, hmax⟩ := hp
  rw [Params.doutBytes] at hn
  rw [BitVec.toNat_ofNat, Nat.mod_eq_of_lt (by omega)]

theorem exec_dout_past_outLen {i : Instr} {s t : State} (hp : s.params.wf = true) (h : exec i s = .next t) {k : Nat}
    (hk : t.outLen.toNat ≤ k) : t.dout.lookup k = s.dout.lookup k := by
  obtain ⟨hdout, -⟩ | ⟨bs, hdout, houtLen, hfits⟩ := exec_output h
  · rw [hdout]
  · rw [houtLen, toNat_outLen hp hfits] at hk
    rw [hdout, Memory.lookup_storeFrom, if_neg (by omega)]

end Sys2Proof.Machine

open Sys2Proof Sys2Proof.Machine Sys2Proof.Spec

/-- Settles O9: each command's own commit shows its frame; a failure writes no output but OUT_LEN and the schedule. -/
theorem commandsChangeOnlyTheirOutputs : Obligations.CommandsChangeOnlyTheirOutputs := by
  intro i s t h
  obtain ⟨u, hu, rfl⟩ | ⟨e, -, rfl⟩ := exec_cases h
  · have hcommit := commits_of_resultOf hu
    cases i with
    | keyExpand => obtain ⟨-, rfl⟩ := hcommit; simp [alwaysOf]
    | tagVerify => obtain rfl := hcommit; simp [alwaysOf]
    | aeEncrypt hs => obtain ⟨bs, rfl⟩ := hcommit; cases hs <;> simp [alwaysOf, State.drawsAfter]
    | _ => obtain ⟨_, rfl⟩ := hcommit; simp [alwaysOf]
  · cases i <;> simp [alwaysOf, onErrorOf]

/-- Settles O10: a command stores its output from byte 0 of DOUT on, and OUT_LEN is the output's length. -/
theorem outputBytesPastOutLenAreKept : Obligations.OutputBytesPastOutLenAreKept := by
  intro i s t hp h
  obtain ⟨-, hdin, hepoch, -, -⟩ := exec_keeps h
  refine ⟨fun k hk => ?_, fun k => ?_⟩
  · simp only [State.windowByte, State.doutByte, exec_dout_past_outLen hp h hk, hepoch]
  · simp only [State.windowByte, State.dinByte, hdin, hepoch]

/-- Settles O11: bytes past the length registers change neither the key nor the message. -/
theorem commandsReadOnlyTheirOperands : Obligations.CommandsReadOnlyTheirOperands := by
  intro i s t t' key' din' hkey hdin h h'
  have hmoved := exec_withInputs (State.message_congr rfl hdin) (State.keyBytes_congr rfl hkey) h
  exact Host.Outcome.next.inj (h'.symm.trans hmoved)

end

section
/-! What one step can do (00_scope.md R15; 60_exceptions.md R610, R611; 70_reset_and_hazards.md R700), said once, and
what follows for the agents' turns, for BWERR and for KS_VALID (10_state.md R107, R108). -/

namespace Sys2Proof.Machine

open Sys2Proof.Spec

/-! ## The sequencer's turn (R611) -/

/-- The sequencer acts, and `rest` is pending after it: its turn is the oldest, or no turn is pending. -/
def State.SequencerActs (s : State) (rest : List Turn) : Prop :=
  s.turns = .sequencer :: rest ∨ (s.turns = [] ∧ rest = [])

theorem step_sequencer {s : State} {rest : List Turn} (h : s.SequencerActs rest) :
    step s = sequencerStep (s.turned rest none) := by
  obtain h | ⟨h, rfl⟩ := h
  · simp only [step, turnStep, h]
    rfl
  · simp only [step, turnStep, h, State.turned]

theorem step_reset {s : State} {rest : List Turn} (h : s.turns = .reset :: rest) :
    step s = .next (s.turned rest none).applyReset := by
  simp only [step, turnStep, h]
  rfl

/-- A sequencer that steps is IDLE and does nothing, or completes the command it has latched. -/
theorem sequencerStep_cases {s t : State} (h : sequencerStep s = .next t) :
    (s.seq = .idle ∧ t = s) ∨ ∃ w i, s.seq = .busy w ∧ decodeWord w = .ok i ∧ exec i s = .next t := by
  cases hseq : s.seq with
  | idle =>
    rw [sequencerStep_idle hseq, Host.Outcome.next.injEq] at h
    exact .inl ⟨rfl, h.symm⟩
  | busy w =>
    cases hdecode : decodeWord w with
    | ok i =>
      rw [sequencerStep_busy hseq hdecode] at h
      exact .inr ⟨w, i, rfl, hdecode, h⟩
    | error e =>
      simp only [sequencerStep, hseq, hdecode] at h
      cases h

/-! ## One step -/

/-- The oldest turn is neither a reset nor a write that is performed. -/
structure State.QuietTurn (s : State) : Prop where
  reset : ∀ rest, s.turns ≠ .reset :: rest
  write : ∀ off v rest, off % 4 = 0 → off < 0x40000 → s.turns ≠ writeTurn s off v :: rest

theorem State.SequencerActs.quiet {s : State} {rest : List Turn} (h : s.SequencerActs rest) : s.QuietTurn := by
  obtain h | ⟨h, -⟩ := h <;> constructor <;> simp [h, writeTurn]

/-- What a step does to the state: a reset, a performed write, the completion of the latched command, or nothing but
the taking of a turn, as for every read, every access that is not performed, and the turn of an IDLE sequencer. -/
inductive StepEffect (s : State) : State → Prop
  | reset {rest : List Turn} (hturns : s.turns = .reset :: rest) : StepEffect s (s.turned rest none).applyReset
  | write {off : Nat} {v : Word} {rest : List Turn} (halign : off % 4 = 0) (hoff : off < 0x40000)
      (hturns : s.turns = writeTurn s off v :: rest) :
      StepEffect s ((s.writeWord off v).turned rest (some (.write .okay)))
  | complete {w : Word} {i : Instr} {rest : List Turn} {t : State} (hquiet : s.QuietTurn) (hseq : s.seq = .busy w)
      (hdecode : decodeWord w = .ok i) (hexec : exec i (s.turned rest none) = .next t) : StepEffect s t
  | none {rest : List Turn} {r : Option Reply} (hquiet : s.QuietTurn) : StepEffect s (s.turned rest r)

theorem stepEffect_of_sequencer {s t : State} {rest : List Turn} (h : s.SequencerActs rest)
    (hstep : step s = .next t) : StepEffect s t := by
  rw [step_sequencer h] at hstep
  obtain ⟨-, rfl⟩ | ⟨w, i, hseq, hdecode, hexec⟩ := sequencerStep_cases hstep
  · exact .none h.quiet
  · exact .complete h.quiet hseq hdecode hexec

/-- A performed write stands at its offset in the aperture (R201, R202). -/
theorem write_eq_writeTurn {s : State} {addr n : Nat} {v : Word}
    (hin : (Access.write addr n v).inAperture s.params = true)
    (hperf : (Access.write addr n v).performed s.params = true) :
    (addr - s.params.base) % 4 = 0 ∧ addr - s.params.base < 0x40000 ∧
      Turn.host (.write addr n v) = writeTurn s (addr - s.params.base) v := by
  obtain ⟨hlow, hhigh⟩ := (Access.inAperture_iff ..).1 hin
  obtain ⟨rfl, halign⟩ := (Access.performed_iff ..).1 hperf
  rw [Access.addr] at hlow hhigh halign
  refine ⟨halign, by omega, ?_⟩
  rw [writeTurn, Nat.add_sub_cancel' hlow]

theorem stepEffect_of_host {s t : State} {a : Access} {rest : List Turn} (hturns : s.turns = .host a :: rest)
    (hstep : step s = .next t) : StepEffect s t := by
  cases hin : a.inAperture s.params with
  | false =>
    rw [step_host hturns, if_pos hin] at hstep
    cases hstep
  | true =>
    have hreset : ∀ rest', s.turns ≠ .reset :: rest' := fun rest' h => by simp [hturns] at h
    cases hperf : a.performed s.params with
    | false =>
      rw [step_host_not_performed hturns hin hperf, Host.Outcome.next.injEq] at hstep
      subst hstep
      refine .none ⟨hreset, fun off v rest' halign hoff h => ?_⟩
      rw [hturns, writeTurn, List.cons.injEq, Turn.host.injEq] at h
      obtain ⟨rfl, -⟩ := h
      obtain ⟨-, hperf'⟩ := Access.performed_of_aligned (a := .write (s.params.base + off) 4 v) halign hoff rfl rfl
      exact Bool.false_ne_true (hperf.symm.trans hperf')
    | true =>
      cases a with
      | read addr n =>
        rw [step_read hturns hin, Host.Outcome.next.injEq] at hstep
        subst hstep
        exact .none ⟨hreset, fun off v rest' _ _ h => by simp [hturns, writeTurn] at h⟩
      | write addr n v =>
        obtain ⟨halign, hoff, hturn⟩ := write_eq_writeTurn hin hperf
        rw [hturn] at hturns
        rw [step_writeTurn halign hoff hturns, Host.Outcome.next.injEq] at hstep
        subst hstep
        exact .write halign hoff hturns

theorem stepEffect {s t : State} (h : step s = .next t) : StepEffect s t := by
  cases hturns : s.turns with
  | nil => exact stepEffect_of_sequencer (.inr ⟨hturns, rfl⟩) h
  | cons turn rest =>
    cases turn with
    | host a => exact stepEffect_of_host hturns h
    | sequencer => exact stepEffect_of_sequencer (.inl hturns) h
    | reset =>
      rw [step_reset hturns, Host.Outcome.next.injEq] at h
      subst h
      exact .reset hturns

end Sys2Proof.Machine

open Sys2Proof Sys2Proof.Machine Sys2Proof.Spec

/-- Settles O4: with no turn pending the sequencer acts as if its turn were the oldest. -/
theorem stepRunsTheLatchedCommand : Obligations.StepRunsTheLatchedCommand := by
  intro s
  have hempty (h : s.turns = []) : s.turned [] none = { s with reply := none } := by rw [State.turned, ← h]
  refine ⟨fun w i hseq hdecode => ⟨fun h => ?_, fun rest h => ?_⟩, fun hseq => ⟨fun h => ?_, fun rest h => ?_⟩⟩
  · rw [step_sequencer (.inr ⟨h, rfl⟩), hempty h]
    exact sequencerStep_busy hseq hdecode
  · rw [step_sequencer (.inl h)]
    exact sequencerStep_busy hseq hdecode
  · rw [step_sequencer (.inr ⟨h, rfl⟩), hempty h]
    exact sequencerStep_idle hseq
  · rw [step_sequencer (.inl h)]
    exact sequencerStep_idle hseq

/-- Settles O17: an address outside the aperture fails the first check of every access. -/
theorem accessOutsideTheApertureIsRefused : Obligations.AccessOutsideTheApertureIsRefused := by
  intro s rest addr n v hout
  have refuse (a : Access) (haddr : a.addr = addr) (hturns : s.turns = .host a :: rest) :
      step s = .refused .outsideAperture := by
    have hin : a.inAperture s.params = false := by
      rw [← Bool.not_eq_true, Access.inAperture_iff, haddr]
      omega
    rw [step_host hturns, if_pos hin]
  exact ⟨refuse (.read addr n) rfl, refuse (.write addr n v) rfl⟩

/-- Settles O18: both accesses are performed. -/
theorem alignedAccessIsOneStep : Obligations.AlignedAccessIsOneStep := fun _ _ _ _ halign hoff =>
  ⟨step_readTurn halign hoff, step_writeTurn halign hoff⟩

end

section
/-! What a host write can do (20_memory.md R209, R211) and what a command can do to the schedule (10_state.md R107,
R130), each said once: with the one step's cases that gives when BWERR and KS_VALID change. -/

namespace Sys2Proof.Machine

open Sys2Proof.Spec

/-! ## One host write -/

/-- What a write of v at an offset does: while BUSY it is dropped unless it goes to STATUS or IE, while IDLE it goes to
one register or window word, or nowhere. -/
inductive WriteEffect (s : State) (off : Nat) (v : Word) : State → Prop
  | dropped (hbusy : s.busy = true) (hstatus : off ≠ 0x008) (hie : off ≠ 0x00C) :
      WriteEffect s off v { s with bwerr := true }
  | status (hoff : off = 0x008) : WriteEffect s off v (s.acknowledge v)
  | ie (hoff : off = 0x00C) : WriteEffect s off v (s.setIe v)
  | accept {i : Instr} (hidle : s.busy = false) (hoff : off = 0x004) (hdecode : decodeWord v = .ok i) :
      WriteEffect s off v (s.accept v)
  | reject (hidle : s.busy = false) (hoff : off = 0x004) (hdecode : ∀ i, decodeWord v ≠ .ok i) :
      WriteEffect s off v s.rejectCommand
  | operand (hidle : s.busy = false) (hstatus : off ≠ 0x008) (keyLen msgLen iter : Word) :
      WriteEffect s off v { s with keyLen := keyLen, msgLen := msgLen, iter := iter }
  | window (hidle : s.busy = false) (hstatus : off ≠ 0x008) (w : Window) (k : Nat) :
      WriteEffect s off v (s.setWindowWord w k v)
  | ignored (hidle : s.busy = false) (hstatus : off ≠ 0x008) : WriteEffect s off v s

theorem State.busy_of_seq {s : State} {w : Word} (h : s.seq = .busy w) : s.busy = true := by
  rw [State.busy, h]

theorem State.not_busy_of_seq {s : State} (h : s.seq = .idle) : s.busy = false := by
  rw [State.busy, h]

theorem writeEffect_of_idle {s : State} (hs : s.seq = .idle) (off : Nat) (v : Word) :
    WriteEffect s off v (s.writeWord off v) := by
  have hidle := State.not_busy_of_seq hs
  by_cases hstatus : off = 0x008
  · rw [hstatus, State.writeWord_status]
    exact .status rfl
  rw [State.writeWord_of_idle hs]
  cases htarget : targetAt s.params off with
  | reserved => exact .ignored hidle hstatus
  | window w k =>
    rw [State.writeIdle]
    split
    · exact .window hidle hstatus w k
    · exact .ignored hidle hstatus
  | register r =>
    have hoff := (targetAt_eq_register_iff ..).1 htarget
    cases r with
    | id | outLen | info => exact .ignored hidle hstatus
    | cmd =>
      rw [State.writeIdle]
      cases hdecode : decodeWord v with
      | ok i =>
        rw [State.issue_of_ok hdecode]
        exact .accept hidle hoff hdecode
      | error e =>
        have hno (i : Instr) : decodeWord v ≠ .ok i := by simp [hdecode]
        rw [State.issue_of_forall_ne_ok hno]
        exact .reject hidle hoff hno
    | status => exact absurd hoff hstatus
    | ie => exact .ie hoff
    | keyLen => exact .operand hidle hstatus v s.msgLen s.iter
    | msgLen => exact .operand hidle hstatus s.keyLen v s.iter
    | iter => exact .operand hidle hstatus s.keyLen s.msgLen v

theorem writeEffect (s : State) (off : Nat) (v : Word) : WriteEffect s off v (s.writeWord off v) := by
  cases hs : s.seq with
  | idle => exact writeEffect_of_idle hs off v
  | busy c =>
    rw [State.writeWord_busy hs]
    split_ifs with hstatus hie
    · exact .status hstatus
    · exact .ie hie
    · exact .dropped (State.busy_of_seq hs) hstatus hie

/-- No host write changes the schedule (R107, R130). -/
theorem WriteEffect.schedule {s t : State} {off : Nat} {v : Word} (h : WriteEffect s off v t) :
    t.rk = s.rk ∧ t.nr = s.nr ∧ t.ksValid = s.ksValid := by
  cases h <;> simp

/-- BWERR after a host write: set by a dropped one, cleared by bit 3 of one to STATUS (R108). -/
theorem WriteEffect.bwerr_iff {s t : State} {off : Nat} {v : Word} (h : WriteEffect s off v t) :
    t.bwerr = true ↔
      (s.busy = true ∧ off ≠ 0x008 ∧ off ≠ 0x00C) ∨ (s.bwerr = true ∧ (off = 0x008 → v.getLsbD 3 = false)) := by
  cases h with
  | dropped hbusy hstatus hie => simp [hbusy, hstatus, hie]
  | status hoff => simp [hoff]
  | ie hoff => simp [hoff]
  | accept hidle hoff _ | reject hidle hoff _ => simp [hidle, hoff]
  | operand hidle hstatus | window hidle hstatus | ignored hidle hstatus => simp [hidle, hstatus]

theorem writeTurn_inj {s : State} {off off' : Nat} {v v' : Word} {rest rest' : List Turn}
    (h : writeTurn s off v :: rest = writeTurn s off' v' :: rest') : off = off' ∧ v = v' := by
  simpa [writeTurn] using (List.cons.inj h).1

/-- No write is dropped and none clears BWERR when the turn is quiet (R108). -/
theorem State.QuietTurn.bwerr_iff {s : State} (h : s.QuietTurn) :
    ((∃ (off : Nat) (v : Word) (rest : List Turn), s.busy = true ∧ off % 4 = 0 ∧ off < 0x40000 ∧
        off ≠ 0x008 ∧ off ≠ 0x00C ∧ s.turns = writeTurn s off v :: rest) ∨
      (s.bwerr = true ∧ (∀ rest, s.turns ≠ .reset :: rest) ∧
        ∀ (v : Word) (rest : List Turn), v.getLsbD 3 = true → s.turns ≠ writeTurn s 0x008 v :: rest)) ↔
    s.bwerr = true := by
  constructor
  · rintro (⟨off, v, rest, -, halign, hoff, -, -, hturns⟩ | ⟨hbwerr, -, -⟩)
    · exact absurd hturns (h.write off v rest halign hoff)
    · exact hbwerr
  · exact fun hbwerr => .inr ⟨hbwerr, h.reset, fun v rest _ => h.write 0x008 v rest (by decide) (by decide)⟩

/-! ## A command and the schedule -/

theorem exec_seq {i : Instr} {s t : State} (h : exec i s = .next t) : t.seq = .idle := by
  obtain ⟨u, -, rfl⟩ | ⟨e, -, rfl⟩ := exec_cases h <;> rfl

/-- What a command leaves of the schedule: as it was; loaded, by a KEY_EXPAND that succeeds; or cleared, by an AE
command (R425, R566). -/
inductive ScheduleEffect (i : Instr) (s t : State) : Prop
  | kept (hrk : t.rk = s.rk) (hnr : t.nr = s.nr) (hks : t.ksValid = s.ksValid)
  | loaded (hi : i = .keyExpand) (hcode : t.errCode = 0) (hkeyLen : KeyLenValid s) (hrk : t.rk = s.withSchedule.rk)
      (hnr : t.nr = s.withSchedule.nr) (hks : t.ksValid = true)
  | cleared (hi : i = .aeDecrypt ∨ ∃ hs, i = .aeEncrypt hs) (hrk : t.rk = s.clearSchedule.rk) (hnr : t.nr = 0)
      (hks : t.ksValid = false)

theorem scheduleEffect {i : Instr} {s t : State} (h : exec i s = .next t) : ScheduleEffect i s t := by
  by_cases hae : i = .aeDecrypt ∨ ∃ hs, i = .aeEncrypt hs
  · obtain ⟨u, code, detail, rfl⟩ := exec_ae_clearSchedule hae h
    exact .cleared hae rfl rfl rfl
  obtain ⟨-, -, -, -, -, hkept, -⟩ := commandsChangeOnlyTheirOutputs i s t h
  rw [not_or, not_exists] at hae
  by_cases hi : i = .keyExpand
  · subst hi
    obtain ⟨u, hu, rfl⟩ | ⟨e, -, rfl⟩ := exec_cases h
    · obtain ⟨hv, rfl⟩ := commits_of_resultOf hu
      exact .loaded rfl rfl hv rfl rfl rfl
    · exact .kept rfl rfl rfl
  · obtain ⟨hrk, hnr, hks⟩ := hkept hi hae.2 hae.1
    exact .kept hrk hnr hks

end Sys2Proof.Machine

open Sys2Proof Sys2Proof.Machine Sys2Proof.Spec

/-- Settles O28: only a performed write changes BWERR, besides reset. -/
theorem bwerrIsSticky : Obligations.BwerrIsSticky := by
  intro s t h
  cases stepEffect h with
  | reset hturns => simp [hturns, writeTurn, State.reset]
  | write halign hoff hturns =>
    refine (writeEffect s _ _).bwerr_iff.trans (or_congr ⟨fun ⟨hbusy, hstatus, hie⟩ =>
      ⟨_, _, _, hbusy, halign, hoff, hstatus, hie, hturns⟩, ?_⟩ (and_congr_right fun _ =>
      ⟨fun hclear => ⟨fun rest' heq => ?_, fun v' rest' hbit heq => ?_⟩, ?_⟩))
    · rintro ⟨off', v', rest', hbusy, -, -, hstatus, hie, heq⟩
      obtain ⟨rfl, -⟩ := writeTurn_inj (hturns.symm.trans heq)
      exact ⟨hbusy, hstatus, hie⟩
    · simp [hturns, writeTurn] at heq
    · obtain ⟨rfl, rfl⟩ := writeTurn_inj (hturns.symm.trans heq)
      exact Bool.false_ne_true ((hclear rfl).symm.trans hbit)
    · rintro ⟨-, hkept⟩ rfl
      exact Bool.eq_false_iff.2 fun hbit => hkept _ _ hbit hturns
  | complete hquiet _ _ hexec =>
    obtain ⟨-, -, -, hbwerr, -⟩ := exec_keeps hexec
    rw [hbwerr]
    exact hquiet.bwerr_iff.symm
  | none hquiet => exact hquiet.bwerr_iff.symm

/-- Settles O29: KS_VALID changes with the schedule alone, at a completion or a reset. -/
theorem ksValidChangesOnlyByKeyExpandAeAndReset : Obligations.KsValidChangesOnlyByKeyExpandAeAndReset := by
  intro s t h
  have of_kept (hks : t.ksValid = s.ksValid) {p q : Prop} :
      (s.ksValid = false → t.ksValid = true → p) ∧ (s.ksValid = true → t.ksValid = false → q) := by
    rw [hks]
    exact ⟨fun hf ht => absurd ht (by simp [hf]), fun ht hf => absurd ht (by simp [hf])⟩
  cases stepEffect h with
  | reset hturns => exact ⟨fun _ => nofun, fun _ _ => .inl ⟨_, hturns⟩⟩
  | write _ _ _ =>
    obtain ⟨-, -, hks⟩ := (writeEffect s _ _).schedule
    exact of_kept hks
  | none _ => exact of_kept rfl
  | complete _ hseq hdecode hexec =>
    have hidle := exec_seq hexec
    cases scheduleEffect hexec with
    | kept _ _ hks => exact of_kept hks
    | loaded hi hcode _ _ _ hks =>
      exact ⟨fun _ _ => ⟨_, hseq, hi ▸ hdecode, hidle, hcode⟩, fun _ hf => absurd hks (by simp [hf])⟩
    | cleared hi _ _ hks =>
      refine ⟨fun _ ht => absurd ht (by simp [hks]), fun _ _ => .inr ⟨_, hseq, hidle, ?_⟩⟩
      obtain rfl | ⟨hs, rfl⟩ := hi
      · exact .inl hdecode
      · exact .inr ⟨hs, hdecode⟩

end

section
/-! The invariant `State.Inv` (10_state.md, 60_exceptions.md): it holds after reset, and a reset, a host write and a
completion keep it; with it, no step faults. And what reset leaves (70_reset_and_hazards.md R701). -/

namespace Sys2Proof.Machine

open Sys2Proof.Spec

/-! ## Error codes (R601, R602) -/

/-- A pair of ERR_CODE and ERR_DETAIL that the invariant allows. -/
def ValidCodes (code detail : BitVec 4) : Prop :=
  code.toNat ≤ 8 ∧ (code = 7 → 1 ≤ detail.toNat ∧ detail.toNat ≤ 5) ∧ (code ≠ 7 → detail = 0)

theorem validCodes_success : ValidCodes 0 0 := by unfold ValidCodes; decide

theorem validCodes_illegalCommand : ValidCodes 8 0 := by unfold ValidCodes; decide

theorem CmdError.validCodes (e : CmdError) : ValidCodes e.code e.detail := by
  obtain ⟨hne, -, hle, hdetail⟩ | ⟨h7, hdetail⟩ := e.code_detail
  · exact ⟨by omega, fun h7 => absurd h7 hne, fun _ => hdetail⟩
  · exact ⟨by rw [h7]; decide, fun _ => hdetail, fun hne => absurd h7 hne⟩

/-! ## Reset (R700, R701) -/

/-- The state after a reset, with any parameters and any values of the model's own fields. -/
def State.resetWith (p : Params) (turns : List Turn) (draws epoch : Nat) : State :=
  { State.reset with params := p, turns := turns, draws := draws, epoch := epoch }

section
variable (p : Params) (turns : List Turn) (draws epoch : Nat)

theorem State.resetWith_windowByte {w : Window} (hdin : w ≠ .din) (hdout : w ≠ .dout) (k : Nat) :
    (State.resetWith p turns draws epoch).windowByte w k = 0 := by
  have zeros (n : Nat) : ((Vector.replicate n (0 : Byte))[k]?).getD 0 = 0 := by
    rw [Vector.getElem?_replicate]
    split <;> rfl
  cases w with
  | din => exact absurd rfl hdin
  | dout => exact absurd rfl hdout
  | _ => exact zeros _

theorem State.resetWith_infoWord :
    (State.resetWith p turns draws epoch).infoWord = BitVec.ofNat 16 (p.dinBytes / 16) ++ (0 : BitVec 16) := by
  have zeros (x : BitVec 16) : (x ++ 0#8 ++ 0#8 : BitVec (16 + 8 + 8)) = (x ++ 0#16 : BitVec (16 + 16)) :=
    BitVec.eq_of_toNat_eq (by
      simp only [BitVec.toNat_append, BitVec.toNat_ofNat, Nat.zero_mod, Nat.or_zero, ← Nat.shiftLeft_add])
  exact zeros _

theorem State.inv_resetWith (hp : p.wf = true) : (State.resetWith p turns draws epoch).Inv where
  params := hp
  latched := nofun
  inProgress := nofun
  code := validCodes_success.1
  detail := validCodes_success.2
  rounds := ⟨nofun, fun _ => rfl⟩
  unusedKeys i _ := Vector.getElem_replicate i.isLt
  outLen := Nat.zero_le _
  dinForm := rfl
  doutForm := rfl
  dinRange := nofun
  doutRange := nofun

end

theorem State.readWord_reserved {s : State} {off : Nat} (h : targetAt s.params off = .reserved) : s.readWord off = 0 :=
  State.readWord_of_idle_of_busy (by rw [h]; rfl) (by rw [h]; rfl)

/-! ## The invariant -/

section
variable {s : State} (h : s.Inv)
include h

theorem State.Inv.turned (rest : List Turn) (r : Option Reply) : (s.turned rest r).Inv := { h with }

theorem State.Inv.setWindowByte (w : Window) (k : Nat) (b : Byte) : (s.setWindowByte w k b).Inv := by
  cases w with
  | din =>
    rw [State.setWindowByte]
    split
    next hk =>
      exact { h with
        dinForm := Memory.store_wf h.dinForm k b
        dinRange := fun c hc => by
          obtain rfl | hc := Memory.mem_store hc
          · exact hk
          · exact h.dinRange c hc }
    next => exact h
  | dout =>
    rw [State.setWindowByte]
    split
    next hk =>
      exact { h with
        doutForm := Memory.store_wf h.doutForm k b
        doutRange := fun c hc => by
          obtain rfl | hc := Memory.mem_store hc
          · exact hk
          · exact h.doutRange c hc }
    next => exact h
  | _ => exact { h with }

theorem State.Inv.setWindowWord (w : Window) (k : Nat) (v : Word) : (s.setWindowWord w k v).Inv :=
  (((h.setWindowByte w k _).setWindowByte w (k + 1) _).setWindowByte w (k + 2) _).setWindowByte w (k + 3) _

/-- Accept latches a legal word and clears DONE and the error fields (R610). -/
theorem State.Inv.accept {v : Word} {i : Instr} (hv : decodeWord v = .ok i) : (s.accept v).Inv :=
  { h with
    latched := fun w hw => by
      obtain rfl : v = w := Seq.busy.inj hw
      exact (CommandWord.legal_iff v).2 ⟨i, hv⟩
    inProgress := fun _ => ⟨rfl, rfl, rfl⟩
    code := validCodes_success.1
    detail := validCodes_success.2 }

theorem State.Inv.rejectCommand (hidle : s.busy = false) : s.rejectCommand.Inv :=
  { h with
    inProgress := fun hbusy => absurd (hidle.symm.trans hbusy) Bool.false_ne_true
    code := validCodes_illegalCommand.1
    detail := validCodes_illegalCommand.2 }

theorem State.Inv.acknowledge (v : Word) : (s.acknowledge v).Inv :=
  { h with
    inProgress := fun hbusy => by
      obtain ⟨hdone, hcodes⟩ := h.inProgress hbusy
      exact ⟨by rw [State.acknowledge_done, hdone, Bool.false_and], hcodes⟩ }

theorem State.Inv.writeEffect {off : Nat} {v : Word} {t : State} (ht : WriteEffect s off v t) : t.Inv := by
  cases ht with
  | dropped | ie | operand => exact { h with }
  | status => exact h.acknowledge v
  | accept _ _ hdecode => exact h.accept hdecode
  | reject hidle _ _ => exact h.rejectCommand hidle
  | window _ _ w k => exact h.setWindowWord w k v
  | ignored => exact h

/-- NR and the words past the schedule's end after a command (R116, R130). -/
theorem State.Inv.schedule_of_effect {i : Instr} {t : State} (ht : ScheduleEffect i s t) :
    ((t.ksValid = true → t.nr = 10 ∨ t.nr = 12 ∨ t.nr = 14) ∧ (t.ksValid = false → t.nr = 0)) ∧
      ∀ k : Fin 60, (t.ksValid = false ∨ 4 * (t.nr.toNat + 1) ≤ k.val) → t.rk[k] = Word4.zero := by
  cases ht with
  | kept hrk hnr hks =>
    rw [hrk, hnr, hks]
    exact ⟨h.rounds, h.unusedKeys⟩
  | loaded _ _ hkeyLen hrk hnr hks =>
    rw [hrk, hnr, hks]
    have hlen := State.keyLen_toNat_of_valid hkeyLen
    have hround : s.withSchedule.nr = BitVec.ofNat 8 (s.keyLen.toNat / 4 + 6) := by
      rw [State.withSchedule_nr, roundCount_div_four hlen]
    refine ⟨⟨fun _ => ?_, nofun⟩, fun k hk => State.withSchedule_rk_past_end hkeyLen k ?_⟩
    · rw [hround]
      obtain hlen | hlen | hlen := hlen <;> rw [hlen] <;> decide
    · obtain hk | hk := hk
      · cases hk
      · rw [hround, BitVec.toNat_ofNat, Nat.mod_eq_of_lt (by omega)] at hk
        exact hk
  | cleared _ hrk hnr hks =>
    rw [hrk, hnr, hks]
    exact ⟨⟨nofun, fun _ => rfl⟩, fun k _ => Vector.getElem_replicate k.isLt⟩

/-- OUT_LEN and the stored bytes of DOUT after a command (R115, R125). -/
theorem State.Inv.output_of_exec {i : Instr} {t : State} (hexec : exec i s = .next t) :
    t.outLen.toNat ≤ s.params.doutBytes ∧ t.dout.wf = true ∧ ∀ c ∈ t.dout, c.1 < s.params.doutBytes := by
  obtain ⟨hdout, houtLen⟩ | ⟨bs, hdout, houtLen, hfits⟩ := exec_output hexec <;> rw [hdout]
  · refine ⟨?_, h.doutForm, h.doutRange⟩
    obtain houtLen | houtLen := houtLen <;> rw [houtLen]
    · exact h.outLen
    · exact Nat.zero_le _
  · refine ⟨by rwa [houtLen, toNat_outLen h.params hfits], Memory.storeFrom_wf h.doutForm 0 bs, fun c hc => ?_⟩
    obtain hc | hc := Memory.mem_storeFrom hc
    · exact h.doutRange c hc
    · omega

theorem State.Inv.exec {i : Instr} {t : State} (hexec : exec i s = .next t) : t.Inv := by
  obtain ⟨hparams, hdin, -, -, -⟩ := exec_keeps hexec
  have hseq := exec_seq hexec
  have hvalid : ValidCodes t.errCode t.errDetail := by
    obtain ⟨u, -, rfl⟩ | ⟨e, -, rfl⟩ := exec_cases hexec
    · exact validCodes_success
    · exact e.validCodes
  obtain ⟨hrounds, hkeys⟩ := h.schedule_of_effect (scheduleEffect hexec)
  obtain ⟨houtLen, hform, hrange⟩ := h.output_of_exec hexec
  rw [← hparams] at houtLen hrange
  exact
    { params := hparams ▸ h.params
      latched := by simp [hseq]
      inProgress := by simp [State.busy, hseq]
      code := hvalid.1
      detail := hvalid.2
      rounds := hrounds
      unusedKeys := hkeys
      outLen := houtLen
      dinForm := hdin ▸ h.dinForm
      doutForm := hform
      dinRange := by rw [hdin, hparams]; exact h.dinRange
      doutRange := hrange }

theorem State.Inv.sequencerStep_ne_fault (f : Fault) : sequencerStep s ≠ .fault f := by
  cases hseq : s.seq with
  | idle => simp [sequencerStep_idle hseq]
  | busy w =>
    obtain ⟨i, hdecode⟩ := (CommandWord.legal_iff w).1 (h.latched w hseq)
    simp [sequencerStep_busy hseq hdecode, exec_eq]

theorem State.Inv.noFault : s.NoFault := by
  intro f hfault
  have of_sequencer {rest : List Turn} (hacts : s.SequencerActs rest) : False :=
    (h.turned rest none).sequencerStep_ne_fault f ((step_sequencer hacts).symm.trans hfault)
  cases hturns : s.turns with
  | nil => exact of_sequencer (.inr ⟨hturns, rfl⟩)
  | cons turn rest =>
    cases turn with
    | sequencer => exact of_sequencer (.inl hturns)
    | reset => simp [step_reset hturns] at hfault
    | host a =>
      rw [step_host hturns] at hfault
      cases a <;> split_ifs at hfault

end

end Sys2Proof.Machine

open Sys2Proof Sys2Proof.Machine Sys2Proof.Spec

/-- Settles O12: both states are `State.resetWith` of some parameters and own fields. -/
theorem resetLeavesTheListedValues : Obligations.ResetLeavesTheListedValues := by
  unfold Obligations.ResetLeavesTheListedValues
  intro listed
  have all_listed (p : Params) (turns : List Turn) (draws epoch : Nat) : listed (State.resetWith p turns draws epoch) :=
    ⟨rfl, rfl, rfl, (by decide : State.reset.statusWord = 0), rfl, rfl, rfl, rfl, rfl, rfl,
      (by decide : State.reset.ieWord = 0), rfl, rfl, rfl, rfl, rfl, rfl,
      rfl,
      State.resetWith_infoWord .., fun _ k hdin hdout => State.resetWith_windowByte _ _ _ _ hdin hdout k,
      fun i => Vector.getElem_replicate i.isLt, rfl, fun _ => State.readWord_reserved⟩
  exact ⟨all_listed Params.reference [] 0 0, fun s rest hturns =>
    ⟨_, step_reset hturns, all_listed s.params rest s.draws (s.epoch + 1), rfl, rfl⟩⟩

/-- Settles O15: the latched word is legal, so it decodes. -/
theorem invariantRulesOutFaults : Obligations.InvariantRulesOutFaults := fun _ => State.Inv.noFault

/-- Settles O14: the invariant is kept by each thing a step can do. -/
theorem stepKeepsTheInvariant : Obligations.StepKeepsTheInvariant := by
  intro s t h hstep
  cases stepEffect hstep with
  | reset _ => exact State.inv_resetWith _ _ _ _ h.params
  | write _ _ _ => exact (h.writeEffect (writeEffect s _ _)).turned _ _
  | complete _ _ _ hexec => exact (h.turned _ none).exec hexec
  | none _ => exact h.turned _ _

/-- Settles O13: the reference parameters are well formed. -/
theorem resetMeetsTheInvariant : Obligations.ResetMeetsTheInvariant :=
  State.inv_resetWith Params.reference [] 0 0 Params.reference_wf

end

section
/-! The register map and host accesses while IDLE (10_state.md R101; 20_memory.md R205, R209): what every aligned offset
names, what each register reads and takes, the frame of a window write, and what no read shows. -/

namespace Sys2Proof.Machine

open Sys2Proof.Spec

/-! ## The map (R101) -/

theorem registerAt_eq_none_of_forall_ne {off : Nat} (h : ∀ r : Register, off ≠ r.offset) : registerAt off = none := by
  cases hr : registerAt off with
  | none => rfl
  | some r => exact absurd (offset_of_registerAt hr) (h r)

theorem targetAt_eq_window {p : Params} (hp : p.wf = true) {off : Nat} (w : Window) (hlow : w.start ≤ off)
    (hhigh : off < w.start + w.size p) : targetAt p off = .window w (off - w.start) :=
  targetAt_window hp ((Window.holds_iff ..).2 ⟨hlow, hhigh⟩)

/-- An offset past the registers and outside every window is reserved. -/
theorem targetAt_eq_reserved {p : Params} {off : Nat} (hreg : ∀ r : Register, off ≠ r.offset)
    (hwin : ∀ w : Window, off < w.start ∨ w.start + w.size p ≤ off) : targetAt p off = .reserved := by
  refine targetAt_reserved (registerAt_eq_none_of_forall_ne hreg) fun w => ?_
  rw [← Bool.not_eq_true, Window.holds_iff]
  have := hwin w
  omega

/-! ## Registers and windows while IDLE (R209) -/

section
variable {s : State} (hs : s.seq = .idle)
include hs

theorem State.readWord_register (r : Register) : s.readWord r.offset = s.registerValue r := by
  rw [State.readWord_of_idle hs, (targetAt_eq_register_iff ..).2 rfl, State.readIdle]

theorem State.writeWord_register (r : Register) (v : Word) :
    s.writeWord r.offset v = s.writeIdle (.register r) v := by
  rw [State.writeWord_of_idle hs, (targetAt_eq_register_iff ..).2 rfl]

theorem State.writeWord_reserved {off : Nat} (h : targetAt s.params off = .reserved) (v : Word) :
    s.writeWord off v = s := by
  rw [State.writeWord_of_idle hs, h, State.writeIdle]

/-- A word of a window that the host does not write stays (R209). -/
theorem State.writeWord_readOnly (hp : s.params.wf = true) {w : Window} {k : Nat} (hk : k < w.size s.params)
    (hw : w.hostWrites = false) (v : Word) : s.writeWord (w.start + k) v = s := by
  rw [State.writeWord_of_idle hs, targetAt_start_add hp hk, State.writeIdle, if_neg (by simp [hw])]

end

theorem Window.hostWrites_eq_false_iff (w : Window) : w.hostWrites = false ↔ w = .blockOut ∨ w = .dout := by
  cases w <;> decide

/-! ## What a read does not show (R117, R130) -/

/-- The state with other contents of KEY and RK. -/
def State.withSecrets (key : Vector Byte 32) (rk : RoundKeys) (s : State) : State := { s with key := key, rk := rk }

theorem State.windowWord_withSecrets (key : Vector Byte 32) (rk : RoundKeys) (s : State) {w : Window} (hw : w ≠ .key)
    (k : Nat) : (s.withSecrets key rk).windowWord w k = s.windowWord w k := by
  have hbyte (k : Nat) : (s.withSecrets key rk).windowByte w k = s.windowByte w k := by
    cases w with
    | key => exact absurd rfl hw
    | _ => rfl
  simp only [State.windowWord, hbyte]

theorem State.readIdle_withSecrets (key : Vector Byte 32) (rk : RoundKeys) (s : State) (t : Target) :
    (s.withSecrets key rk).readIdle t = s.readIdle t := by
  cases t with
  | register r => cases r <;> rfl
  | window w k =>
    by_cases hw : w = .key
    · rw [hw, State.readIdle_key, State.readIdle_key]
    · rw [State.readIdle, State.readIdle, State.windowWord_withSecrets key rk s hw]
  | reserved => rfl

theorem State.readBusy_withSecrets (key : Vector Byte 32) (rk : RoundKeys) (s : State) (t : Target) :
    (s.withSecrets key rk).readBusy t = s.readBusy t := by
  cases t with
  | register r => cases r <;> rfl
  | window | reserved => rfl

theorem State.readReply_withSecrets (key : Vector Byte 32) (rk : RoundKeys) (s : State) (addr n : Nat) :
    (s.withSecrets key rk).readReply addr n = s.readReply addr n := by
  have hword (off : Nat) : (s.withSecrets key rk).readWord off = s.readWord off := by
    cases hs : s.seq with
    | idle => 
      rw [State.readWord_of_idle hs, State.readWord_of_idle (s := s.withSecrets key rk) hs, State.readIdle_withSecrets]
      rfl
    | busy c => 
      rw [State.readWord_of_busy hs, State.readWord_of_busy (s := s.withSecrets key rk) hs, State.readBusy_withSecrets]
      rfl
  rw [State.readReply, hword]
  rfl

end Sys2Proof.Machine

open Sys2Proof Sys2Proof.Machine Sys2Proof.Spec

/-- Settles O20: each range of the map is a register's offset, a window, or a gap between windows. -/
theorem offsetsNameWhatTheMapLists : Obligations.OffsetsNameWhatTheMapLists := by
  intro p off hp halign hoff
  have hbytes : 64 ≤ p.dinBytes ∧ p.dinBytes ≤ 65472 := by
    simp only [Params.wf, Bool.and_eq_true, decide_eq_true_eq] at hp
    exact ⟨hp.1.2, hp.2⟩
  have hdout : p.doutBytes = p.dinBytes + 64 := rfl
  have window (w : Window) (h : w.start ≤ off ∧ off < w.start + w.size p) := targetAt_eq_window hp w h.1 h.2
  have next {c : Prop} [Decidable c] {x y : Target} (hpos : c → targetAt p off = x) (hneg : ¬c → targetAt p off = y) :
      targetAt p off = if c then x else y := iteInduction (motive := (targetAt p off = ·)) hpos hneg
  have register (r : Register) := (targetAt_eq_register_iff p off r).2
  refine next (register .id) fun _ => next (register .cmd) fun _ => next (register .status) fun _ =>
    next (register .ie) fun _ => next (register .keyLen) fun _ => next (register .msgLen) fun _ =>
    next (register .iter) fun _ => next (register .outLen) fun _ => next (register .info) fun _ => ?_
  have gap := targetAt_eq_reserved (p := p) (off := off) fun r => by cases r <;> simp only [Register.offset] <;> omega
  refine next (fun _ => gap fun w => ?beforeKey) fun _ =>
    next (fun _ => window .key ?_) fun _ => next (fun _ => window .iv ?_) fun _ =>
    next (fun _ => window .salt ?_) fun _ => next (fun _ => window .tag ?_) fun _ =>
    next (fun _ => window .blockIn ?_) fun _ => next (fun _ => window .blockOut ?_) fun _ =>
    next (fun _ => window .dkCk ?_) fun _ => next (fun _ => window .dkAk ?_) fun _ =>
    next (fun _ => window .dkIv ?_) fun _ => next (fun _ => gap fun w => ?beforeDin) fun _ =>
    next (fun _ => window .din ?_) fun _ => next (fun _ => gap fun w => ?beforeDout) fun _ =>
    next (fun _ => window .dout ?_) fun _ => gap fun w => ?afterDout
  case beforeKey | beforeDin | beforeDout | afterDout =>
    cases w <;> simp only [Window.start, Window.size, hdout] <;> omega
  all_goals
    simp only [Window.start, Window.size, hdout]
    omega

/-- Settles O21: each offset's target is the register's, and an idle access goes to its target. -/
theorem idleRegisterAccesses : Obligations.IdleRegisterAccesses := by
  intro s v hs
  have read (r : Register) : s.readWord r.offset = s.registerValue r := State.readWord_register hs r
  have write (r : Register) : s.writeWord r.offset v = s.writeIdle (.register r) v := State.writeWord_register hs r v
  exact ⟨⟨read .id, write .id⟩, read .cmd, ⟨read .ie, write .ie⟩, ⟨read .keyLen, write .keyLen⟩,
    ⟨read .msgLen, write .msgLen⟩, ⟨read .iter, write .iter⟩, ⟨read .outLen, write .outLen⟩,
    ⟨read .info, s.infoWord_fields.1, s.infoWord_fields.2.1, s.infoWord_fields.2.2, write .info⟩,
    fun _ h => ⟨State.readWord_reserved h, State.writeWord_reserved hs h v⟩⟩

/-- Settles O23: the window's other bytes are those of `windowByte_setWindowWord`; no other field is written. -/
theorem windowWriteChangesFourBytes : Obligations.WindowWriteChangesFourBytes := by
  intro s w j v hs hp hj
  dsimp only
  by_cases hwrites : w.hostWrites = false
  · rw [State.writeWord_readOnly hs hp hj hwrites]
    exact ⟨fun _ _ _ => rfl, ⟨rfl, rfl, rfl, rfl, rfl, rfl, rfl, rfl, rfl, rfl, rfl, rfl, rfl, rfl, rfl⟩, fun _ => rfl⟩
  · rw [Window.hostWrites_eq_false_iff] at hwrites
    rw [State.writeWord_window hs hp hj (fun h => hwrites (.inl h)) (fun h => hwrites (.inr h))]
    refine ⟨fun w' k hne => ?_, ?_, fun h => absurd h hwrites⟩
    · rw [State.windowByte_setWindowWord _ _ _ _ _ _ (Window.word_fits hp hj),
        if_neg fun ⟨hw, _, _⟩ => hne.elim (absurd hw) fun _ => by omega]
    · simp [State.statusWord, State.ieWord, State.infoWord, State.busy]

/-- Settles O30: a read shows registers and windows, and KEY reads 0. -/
theorem hostReadsDoNotRevealKeyOrSchedule : Obligations.HostReadsDoNotRevealKeyOrSchedule := by
  intro s rest addr n key' rk' r hturns
  change _ ↔ step (s.withSecrets key' rk') = .next (replied (s.withSecrets key' rk') rest r)
  have hturns' : (s.withSecrets key' rk').turns = .host (.read addr n) :: rest := hturns
  cases hin : (Access.read addr n).inAperture s.params with
  | false =>
    have hin' : (Access.read addr n).inAperture (s.withSecrets key' rk').params = false := hin
    rw [step_host hturns, if_pos hin, step_host hturns', if_pos hin']
    exact ⟨nofun, nofun⟩
  | true =>
    rw [step_read hturns hin, step_read hturns' hin, State.readReply_withSecrets]
    simp [replied]

end

section
/-! The inverse cipher (40_tables_gf.md R408, R410; 42_block_cipher.md R451, R456): the tables and the column matrices
undo one another, and so do the rounds, the ciphers and the two block commands. -/

namespace Sys2Proof.Machine

/-! ## Tables and columns (R408, R410) -/

theorem invSbox_sbox : ∀ x : Byte, invSbox (sbox x) = x := by decide +kernel

/-- The other side follows: an injective map of the 256 bytes reaches every byte. -/
theorem sbox_invSbox (x : Byte) : sbox (invSbox x) = x :=
  have hleft : Function.LeftInverse invSbox sbox := invSbox_sbox
  hleft.rightInverse_of_surjective (Finite.surjective_of_injective hleft.injective) x

/-- Both column matrices are circulant: they commute with the rotation of a column. -/
theorem mixColumn_rotWord (a : Word4) : mixColumn (rotWord a) = rotWord (mixColumn a) := by
  simp only [mixColumn, rotWord, Word4.mk.injEq]
  refine ⟨?_, ?_, ?_, ?_⟩ <;> ac_rfl

theorem invMixColumn_rotWord (a : Word4) : invMixColumn (rotWord a) = rotWord (invMixColumn a) := by
  simp only [invMixColumn, rotWord, Word4.mk.injEq]
  refine ⟨?_, ?_, ?_, ?_⟩ <;> ac_rfl

/-- The four bytes of a column are the top bytes of its rotations. -/
theorem Word4.eq_of_rotWord_b0 {f : Word4 → Word4} (hrot : ∀ a, f (rotWord a) = rotWord (f a))
    (htop : ∀ a, (f a).b0 = a.b0) (a : Word4) : f a = a := by
  have h1 := htop (rotWord a)
  have h2 := htop (rotWord (rotWord a))
  have h3 := htop (rotWord (rotWord (rotWord a)))
  simp only [hrot] at h1 h2 h3
  exact Word4.mk.injEq .. ▸ ⟨htop a, h1, h2, h3⟩

/-- A sum of four rows of four bytes, summed by its columns. -/
theorem xor_rows_eq_xor_columns (a0 a1 a2 a3 b0 b1 b2 b3 c0 c1 c2 c3 d0 d1 d2 d3 : Byte) :
    (a0 ^^^ a1 ^^^ a2 ^^^ a3) ^^^ (b0 ^^^ b1 ^^^ b2 ^^^ b3) ^^^ (c0 ^^^ c1 ^^^ c2 ^^^ c3) ^^^
        (d0 ^^^ d1 ^^^ d2 ^^^ d3) =
      (a0 ^^^ b0 ^^^ c0 ^^^ d0) ^^^ (a1 ^^^ b1 ^^^ c1 ^^^ d1) ^^^ (a2 ^^^ b2 ^^^ c2 ^^^ d2) ^^^
        (a3 ^^^ b3 ^^^ c3 ^^^ d3) := by
  ac_rfl

/-- The top byte of a product of the matrices, by the product's coefficients. -/
theorem invMixColumn_mixColumn_b0 (a : Word4) : (invMixColumn (mixColumn a)).b0 = a.b0 := by
  obtain ⟨h0, -, -, -⟩ := invMix_mix_coefficients a.b0
  obtain ⟨-, h1, -, -⟩ := invMix_mix_coefficients a.b1
  obtain ⟨-, -, h2, -⟩ := invMix_mix_coefficients a.b2
  obtain ⟨-, -, -, h3⟩ := invMix_mix_coefficients a.b3
  simp only [invMixColumn, mixColumn, gmul_xor_right]
  rw [xor_rows_eq_xor_columns, h0, h1, h2, h3]
  simp

theorem mixColumn_invMixColumn_b0 (a : Word4) : (mixColumn (invMixColumn a)).b0 = a.b0 := by
  obtain ⟨h0, -, -, -⟩ := mix_invMix_coefficients a.b0
  obtain ⟨-, h1, -, -⟩ := mix_invMix_coefficients a.b1
  obtain ⟨-, -, h2, -⟩ := mix_invMix_coefficients a.b2
  obtain ⟨-, -, -, h3⟩ := mix_invMix_coefficients a.b3
  simp only [invMixColumn, mixColumn, gmul_xor_right]
  rw [xor_rows_eq_xor_columns, h0, h1, h2, h3]
  simp

theorem invMixColumn_mixColumn (a : Word4) : invMixColumn (mixColumn a) = a :=
  Word4.eq_of_rotWord_b0 (f := invMixColumn ∘ mixColumn)
    (fun a => by simp only [Function.comp, mixColumn_rotWord, invMixColumn_rotWord]) invMixColumn_mixColumn_b0 a

theorem mixColumn_invMixColumn (a : Word4) : mixColumn (invMixColumn a) = a :=
  Word4.eq_of_rotWord_b0 (f := mixColumn ∘ invMixColumn)
    (fun a => by simp only [Function.comp, mixColumn_rotWord, invMixColumn_rotWord]) mixColumn_invMixColumn_b0 a

/-! ## The layers of a round (R442, R443, R446, R447) -/

theorem invSubBytes_subBytes (s : Matrix) : invSubBytes (subBytes s) = s := by
  simp only [invSubBytes, subBytes, invSubWord, subWord, invSbox_sbox]

theorem subBytes_invSubBytes (s : Matrix) : subBytes (invSubBytes s) = s := by
  simp only [invSubBytes, subBytes, invSubWord, subWord, sbox_invSbox]

theorem invMixColumns_mixColumns (s : Matrix) : invMixColumns (mixColumns s) = s := by
  simp only [invMixColumns, mixColumns, invMixColumn_mixColumn]

theorem mixColumns_invMixColumns (s : Matrix) : mixColumns (invMixColumns s) = s := by
  simp only [invMixColumns, mixColumns, mixColumn_invMixColumn]

/-! ## Rounds and ciphers (R449 to R451) -/

theorem decRound_encRound (s k : Matrix) : decRound (encRound s k) k = s := by
  rw [decRound, encRound, addRoundKey_addRoundKey, invMixColumns_mixColumns, invShiftRows_shiftRows,
    invSubBytes_subBytes]

theorem encRound_decRound (s k : Matrix) : encRound (decRound s k) k = s := by
  rw [decRound, encRound, subBytes_invSubBytes, shiftRows_invShiftRows, mixColumns_invMixColumns,
    addRoundKey_addRoundKey]

theorem decRounds_encRounds (rk : RoundKeys) (n : Nat) (s : Matrix) : decRounds rk n (encRounds rk n s) = s := by
  induction n with
  | zero => rfl
  | succ n ih => rw [encRounds, decRounds, decRound_encRound, ih]

theorem encRounds_decRounds (rk : RoundKeys) (n : Nat) (s : Matrix) : encRounds rk n (decRounds rk n s) = s := by
  induction n generalizing s with
  | zero => rfl
  | succ n ih => rw [encRounds, decRounds, ih, encRound_decRound]

theorem invCipher_cipher (rk : RoundKeys) (nr : Nat) (b : Block) : invCipher rk nr (cipher rk nr b) = b := by
  simp only [invCipher, cipher, encLastRound, toMatrix_fromMatrix, addRoundKey_addRoundKey, invShiftRows_shiftRows,
    invSubBytes_subBytes, decRounds_encRounds, fromMatrix_toMatrix]

theorem cipher_invCipher (rk : RoundKeys) (nr : Nat) (b : Block) : cipher rk nr (invCipher rk nr b) = b := by
  simp only [invCipher, cipher, encLastRound, toMatrix_fromMatrix, addRoundKey_addRoundKey, encRounds_decRounds,
    subBytes_invSubBytes, shiftRows_invShiftRows, fromMatrix_toMatrix]

/-- A command whose result is a state has one completion. -/
theorem eq_finish_of_exec {i : Instr} {s u t : State} (hr : resultOf i s = .ok u) (h : exec i s = .next t) :
    t = (alwaysOf i u).finish 0 0 :=
  (Host.Outcome.next.inj ((exec_ok hr).symm.trans h)).symm

end Sys2Proof.Machine

open Sys2Proof Sys2Proof.Machine

/-- Settles O34: the tables byte by byte, the matrices by the coefficients of their products. -/
theorem inverseTablesInvert : Obligations.InverseTablesInvert :=
  ⟨fun x => ⟨invSbox_sbox x, sbox_invSbox x⟩, fun a => ⟨invMixColumn_mixColumn a, mixColumn_invMixColumn a⟩⟩

/-- Settles O37: each step of the one cipher undoes the matching step of the other, in reverse order. -/
theorem cipherAndInvCipherAreInverse : Obligations.CipherAndInvCipherAreInverse := fun rk nr b =>
  ⟨invCipher_cipher rk nr b, cipher_invCipher rk nr b⟩

/-- Settles O39: DEC_BLOCK finds the schedule unchanged and the ciphertext in BLOCK_IN. -/
theorem decBlockUndoesEncBlock : Obligations.DecBlockUndoesEncBlock := by
  intro s t hks h
  obtain rfl := eq_finish_of_exec (i := .encBlock) (blockResult_of_schedule cipher hks) h
  exact ⟨_, exec_ok (i := .decBlock) (blockResult_of_schedule invCipher hks), invCipher_cipher .., rfl, rfl, rfl, hks⟩

end

section
/-! The padded message of SHA-256 (44_hash_kdf.md R501), part by part. -/

namespace Sys2Proof.Machine

/-! ## Numbers in big-endian bytes (R14) -/

theorem toNat_lane (w : Word) (i : Nat) : (lane w i).toNat = w.toNat / 2 ^ (8 * i) % 256 := by
  rw [lane, BitVec.extractLsb'_toNat, Nat.shiftRight_eq_div_pow]

theorem foldl_be32 (a : Nat) (w : Word) :
    (be32 w).foldl (fun n b => 256 * n + b.toNat) a = 2 ^ 32 * a + w.toNat := by
  have := w.isLt
  simp only [be32, List.foldl_cons, List.foldl_nil, toNat_lane]
  omega

theorem foldl_be64 {n : Nat} (h : n < 2 ^ 64) : (be64 n).foldl (fun n b => 256 * n + b.toNat) 0 = n := by
  rw [be64, List.foldl_append, foldl_be32, foldl_be32, BitVec.toNat_ofNat, BitVec.toNat_ofNat]
  omega

/-! ## The parts of the padded message -/

/-- The number of zero bytes after 0x80 for a message of n bytes. -/
def shaZeros (n : Nat) : Nat := (64 - (n + 9) % 64) % 64

theorem shaPad_eq (m : List Byte) :
    shaPad m = (m ++ 0x80 :: List.replicate (shaZeros m.length) 0) ++ be64 (8 * m.length) := by
  simp only [shaPad, shaZeros, List.append_assoc, List.singleton_append]

end Sys2Proof.Machine

open Sys2Proof.Machine

/-- Settles O47: the parts stand one after another, and the last is the bit length in big-endian. -/
theorem shaPaddingFillsWholeBlocks : Obligations.ShaPaddingFillsWholeBlocks := by
  intro m hm
  have hbe64 : (be64 (8 * m.length)).length = 8 := rfl
  refine ⟨shaZeros m.length, Nat.mod_lt _ (by decide), by rw [shaZeros]; omega, ?_, ?_, ?_, fun k hk => ?_, ?_⟩ <;>
    rw [shaPad_eq]
  · simp only [List.length_append, List.length_cons, List.length_replicate, hbe64]
    omega
  · rw [List.append_assoc, List.take_left]
  · simp
  · rw [List.append_assoc, Nat.add_assoc, List.getElem?_append_right (by omega), Nat.add_sub_cancel_left, Nat.add_comm,
      List.cons_append, List.getElem?_cons_succ, List.getElem?_append_left (by simpa using hk),
      List.getElem?_replicate_of_lt hk]
  · rw [List.drop_left' (by simp; omega), foldl_be64 (by omega)]

/-- Settles O50: equal digests are those whose differences are all 0. -/
theorem constantTimeComparisonIsEquality : Obligations.ConstantTimeComparisonIsEquality := ctEqual_iff

end

section
/-! CBC_DEC after CBC_ENC (43_chained_mode.md R476): the cipher's inverse undoes the chain, and the padding
comes off. -/

namespace Sys2Proof.Machine

open Sys2Proof.Spec

theorem cbcDecrypt_cbcEncrypt (rk : RoundKeys) (nr : Nat) (iv : Block) (m : List Byte) :
    cbcDecrypt rk nr iv (cbcEncrypt rk nr iv m) = some m := by
  have hwhole : (pad m).length % 16 = 0 := by rw [pad_length, Nat.mul_mod_right]
  rw [cbcDecrypt, cbcDecryptRaw, cbcEncrypt, blocksOf_joinBlocks,
    cbcDecBlocks_cbcEncBlocks _ _ (invCipher_cipher rk nr), joinBlocks_blocksOf _ hwhole, unpad_pad]

/-- The message is the string whose bytes DIN holds. -/
theorem State.message_eq_of_din {u : State} {bs : List Byte} (hlen : u.msgLen.toNat = bs.length)
    (hdin : ∀ k < bs.length, u.windowByte .din k = bs.getD k 0) : u.message = bs := by
  refine List.ext_getElem (by rw [State.message_length, hlen]) fun k hk hk' => ?_
  rw [← List.getD_eq_getElem _ 0, ← List.getD_eq_getElem _ 0, State.message_getD _ _ (by omega), hdin k hk']

theorem State.ofNat_message_length (s : State) : BitVec.ofNat 32 s.message.length = s.msgLen := by
  rw [State.message_length, BitVec.ofNat_toNat, BitVec.setWidth_eq]

end Sys2Proof.Machine

open Sys2Proof Sys2Proof.Machine Sys2Proof.Spec

/-- Settles O44: the message of CBC_DEC is the ciphertext of CBC_ENC. -/
theorem cbcDecUndoesCbcEnc : Obligations.CbcDecUndoesCbcEnc := by
  intro s t u hp hks hm h hparams hrk hnr huks hiv hmsgLen hum hdin
  obtain rfl := eq_finish_of_exec (i := .cbcEnc) (cbcEncResult_of_fits hks hm) h
  have hlen := cbcEncrypt_length s.rk s.nr.toNat s.iv s.message
  have houtLen : u.msgLen.toNat = (cbcEncrypt s.rk s.nr.toNat s.iv s.message).length := by
    rw [hmsgLen]
    refine toNat_outLen hp ?_
    rw [hlen, s.message_length, Params.doutBytes]
    rw [MessageFits] at hm
    omega
  have hmsg : u.message = cbcEncrypt s.rk s.nr.toNat s.iv s.message :=
    State.message_eq_of_din houtLen fun k hk => by
      rw [hdin k (by rwa [← hmsgLen, houtLen])]
      exact (s.windowByte_dout_writeOutput_finish _ 0 0 k).trans (if_pos hk)
  have hresult : cbcDecResult u = .ok (u.writeOutput s.message) := by
    rw [cbcDecResult_of_checks huks hum (by omega) (by omega), hrk, hnr, hiv, hmsg, cbcDecrypt_cbcEncrypt]
    rfl
  refine ⟨_, exec_ok (i := .cbcDec) hresult, rfl, s.ofNat_message_length, fun k hk => ?_⟩
  refine (u.windowByte_dout_writeOutput_finish _ 0 0 k).trans ?_
  rw [s.message_length, if_pos hk, s.message_getD k hk]

end

section
/-! AE_ENCRYPT and AE_DECRYPT past their checks (46_ae_api.md R560 to R569): the blob part by part, its opening, and the
round trip. -/

namespace Sys2Proof.Machine

open Sys2Proof.Spec

/-! ## Strings in a window -/

section
variable {s : State} {w : Window} {bs : List Byte} (hbytes : ∀ k < bs.length, s.windowByte w k = bs.getD k 0)
include hbytes

/-- A part of a string, read back from the window that holds the string. -/
theorem windowBytes_eq_take_drop {a n : Nat} (h : a + n ≤ bs.length) : windowBytes s w a n = (bs.drop a).take n := by
  refine List.ext_getElem (by simp [windowBytes]; omega) fun k hk hk' => ?_
  have hk : k < n := by simpa [windowBytes] using hk
  simp [windowBytes, hbytes (a + k) (by omega), show a + k < bs.length by omega]

theorem windowBlock_eq_firstBytes_drop {a : Nat} (h : a + 16 ≤ bs.length) :
    windowBlock s w a = firstBytes 16 (bs.drop a) := by
  refine Vector.ext fun k hk => ?_
  simp [windowBlock, firstBytes, hbytes (a + k) (by omega), List.getD_eq_getElem?_getD]

end

theorem State.windowByte_din_eq_message (s : State) :
    ∀ k < s.message.length, s.windowByte .din k = s.message.getD k 0 :=
  fun k hk => (s.message_getD k (by simpa using hk)).symm

/-! ## The checks that pass (R561, R564) -/

theorem aeEncryptCheck_eq_none {s : State} (h : EncryptPasses s) : aeEncryptCheck s = none := by
  obtain ⟨hv, hm0, hm, hascii, hi⟩ := h
  rw [← s.messageNotAscii_eq_false_iff] at hascii
  rw [(aeChecks_of_fits hv hm0 hm).1, if_neg (by simp [hascii]), if_neg hi]

theorem aeDecryptCheck_eq_none_iff (s : State) : aeDecryptCheck s = none ↔ DecryptPasses s := by
  constructor
  · intro h
    have h0 : s.keyLen ≠ 0 := fun h0 => by simp [(aeChecks_of_keyLen_eq_zero h0).2] at h
    have hv : KeyLenValid s := by_contra fun hv => by simp [(aeChecks_of_not_valid h0 hv).2] at h
    have hm0 : s.msgLen ≠ 0 := fun hm0 => by simp [(aeChecks_of_empty_message hv hm0).2] at h
    have hm : MessageFits s := by_contra fun hm => by simp [(aeChecks_of_too_long hv hm0 hm).2] at h
    rw [(aeChecks_of_fits hv hm0 hm).2] at h
    split_ifs at h with hlen hi
    exact ⟨hv, hm, by omega, by omega, hi⟩
  · rintro ⟨hv, hm, h16, h64, hi⟩
    have hm0 : s.msgLen ≠ 0 := by bv_omega
    rw [(aeChecks_of_fits hv hm0 hm).2, if_neg (by omega), if_neg hi]

theorem aeEncryptResult_of_passes {s : State} (h : EncryptPasses s) (hs : Bool) :
    aeEncryptResult hs s = .ok (s.writeBlob (s.blob hs) (s.drawsAfter hs)) := by
  rw [aeEncryptResult, aeEncryptCheck_eq_none h]

theorem aeDecryptResult_of_passes {s : State} (h : DecryptPasses s) :
    aeDecryptResult s = (aeOpen s.keyBytes s.iter.toNat s.message).map fun m => s.writeOutput m := by
  rw [aeDecryptResult, (aeDecryptCheck_eq_none_iff s).2 h]

/-- A legal KEY_LEN is at most 32, so the key is the password of the rules. -/
theorem State.keyBytes_eq_password_of_valid {s : State} (h : KeyLenValid s) : s.keyBytes = password s :=
  State.keyBytes_eq_password (by have := State.keyLen_toNat_of_valid h; omega)

/-! ## DOUT after an AE command (R562, R565) -/

section
variable (s : State) (bs : List Byte) (n : Nat) (c d : BitVec 4) (k : Nat)

theorem State.windowByte_dout_writeBlob_finish :
    ((s.writeBlob bs n).clearSchedule.finish c d).windowByte .dout k =
      if k < bs.length then bs.getD k 0 else s.windowByte .dout k :=
  s.doutByte_writeOutput bs k

theorem State.windowByte_dout_writeOutput_clearSchedule_finish :
    ((s.writeOutput bs).clearSchedule.finish c d).windowByte .dout k =
      if k < bs.length then bs.getD k 0 else s.windowByte .dout k :=
  s.doutByte_writeOutput bs k

end

/-! ## Opening a blob (R565) -/

/-- The tag that a blob must have (R565 step 3). -/
def expectedTag (p : List Byte) (n : Nat) (blob : List Byte) : Digest :=
  hmac (deriveKeys p (blobSalt blob).toList n).ak.toList ((blobSalt blob).toList ++ blobCiphertext blob)

/-- The plaintext of a blob's ciphertext, if its padding is valid (R565 steps 4 to 6). -/
def decryptedBlob (p : List Byte) (n : Nat) (blob : List Byte) : Option (List Byte) :=
  cbcDecrypt (schedule (deriveKeys p (blobSalt blob).toList n).ck) 10 (deriveKeys p (blobSalt blob).toList n).iv
    (blobCiphertext blob)

theorem aeOpen_of_wrong_tag {p : List Byte} {n : Nat} {blob : List Byte} (h : blobTag blob ≠ expectedTag p n blob) :
    aeOpen p n blob = .error .integrityFailure := by
  have hct : ctEqual (expectedTag p n blob) (blobTag blob) = false := (ctEqual_eq_false_iff ..).2 (Ne.symm h)
  rw [expectedTag] at hct
  simp only [aeOpen, hct, Bool.not_false, if_true]

theorem aeOpen_of_right_tag {p : List Byte} {n : Nat} {blob : List Byte} (h : blobTag blob = expectedTag p n blob) :
    aeOpen p n blob = (decryptedBlob p n blob).elim (.error .paddingError) .ok := by
  have hct : ctEqual (expectedTag p n blob) (blobTag blob) = true := (ctEqual_iff ..).2 h.symm
  rw [expectedTag] at hct
  simp only [aeOpen, hct, Bool.not_true, Bool.false_eq_true, if_false, decryptedBlob, schedule]
  cases cbcDecrypt _ 10 _ (blobCiphertext blob) <;> rfl

/-- Only a blob with the right tag opens. -/
theorem blobTag_eq_of_aeOpen {p : List Byte} {n : Nat} {blob m : List Byte} (h : aeOpen p n blob = .ok m) :
    blobTag blob = expectedTag p n blob := by
  by_contra htag
  rw [aeOpen_of_wrong_tag htag] at h
  cases h

/-- The blob of a plaintext opens to it (R569). -/
theorem aeOpen_aeBlob (p : List Byte) (salt : Block) (n : Nat) (m : List Byte) :
    aeOpen p n (aeBlob p salt n m) = .ok m := by
  obtain ⟨tag, ct, hblob, htag, hct⟩ := aeBlob_parts p salt n m
  obtain ⟨hbtag, hbsalt, hbct⟩ := blob_fields tag salt ct
  have hright : blobTag (aeBlob p salt n m) = expectedTag p n (aeBlob p salt n m) := by
    rw [hblob, expectedTag, hbtag, hbsalt, hbct, htag]
  rw [aeOpen_of_right_tag hright, decryptedBlob, hblob, hbsalt, hbct, hct, schedule, cbcDecrypt_cbcEncrypt]
  rfl

/-! ## Decryption of a string in DIN (R475) -/

section
variable {s : State} {c : List Byte} {a : Nat} (rk : RoundKeys) (nr : Nat) (iv : Block)
  (hc : ∀ k < c.length, c.getD k 0 = s.windowByte .din (a + k)) (h0 : 0 < c.length) (h16 : c.length % 16 = 0)
include hc h0 h16

theorem paddingValid_cbcDecryptRaw_iff :
    PaddingValid (fun k => (cbcDecryptRaw rk nr iv c).getD k 0) (cbcDecryptRaw rk nr iv c).length ↔
      PaddingValid (rawPlainByte s (invCipher rk nr) iv a) c.length := by
  rw [cbcDecryptRaw_length _ _ _ _ h16]
  exact paddingValid_congr h0 fun k hk => cbcDecryptRaw_getD rk nr iv hc h16 hk

theorem cbcDecrypt_eq_none (hpad : ¬ PaddingValid (rawPlainByte s (invCipher rk nr) iv a) c.length) :
    cbcDecrypt rk nr iv c = none := by
  rwa [← paddingValid_cbcDecryptRaw_iff rk nr iv hc h0 h16, ← unpad_eq_none_iff] at hpad

theorem cbcDecrypt_eq_some (hpad : PaddingValid (rawPlainByte s (invCipher rk nr) iv a) c.length) :
    ∃ r, cbcDecrypt rk nr iv c = some r ∧
      r.length = c.length - (rawPlainByte s (invCipher rk nr) iv a (c.length - 1)).toNat ∧
      ∀ k < r.length, r.getD k 0 = rawPlainByte s (invCipher rk nr) iv a k := by
  rw [← paddingValid_cbcDecryptRaw_iff rk nr iv hc h0 h16] at hpad
  have hraw := fun k => cbcDecryptRaw_getD (k := k) rk nr iv hc h16
  have hlen := cbcDecryptRaw_length rk nr iv c h16
  refine ⟨_, (unpad_eq_some_iff _ _).2 ⟨hpad, rfl⟩, ?_, fun k hk => ?_⟩
  · rw [List.length_take, hlen, hraw _ (by omega), Nat.min_eq_left (Nat.sub_le ..)]
  · rw [List.length_take] at hk
    rw [List.getD_eq_getElem?_getD, List.getElem?_take_of_lt (by omega), ← List.getD_eq_getElem?_getD,
      hraw k (by omega)]

end

/-! ## A blob in a window (R560) -/

section
variable {s : State} {w : Window} {blob : List Byte} (hbytes : ∀ k < blob.length, s.windowByte w k = blob.getD k 0)
  (hlen : 48 ≤ blob.length)
include hbytes hlen

theorem windowBytes_blob :
    windowBytes s w 0 32 = (blobTag blob).toList ∧ windowBytes s w 32 16 = (blobSalt blob).toList ∧
      windowBytes s w 48 (blob.length - 48) = blobCiphertext blob := by
  have part {a n : Nat} := windowBytes_eq_take_drop (a := a) (n := n) hbytes
  refine ⟨?_, ?_, ?_⟩
  · rw [part (by omega), blobTag, firstBytes_toList _ _ (by omega), List.drop_zero]
  · rw [part (by omega), blobSalt, firstBytes_toList _ _ (by rw [List.length_drop]; omega)]
  · rw [part (by omega), blobCiphertext, List.take_of_length_le (by rw [List.length_drop])]

theorem windowBlock_blob :
    windowBlock s w 32 = blobSalt blob ∧
      ∀ j, 48 + 16 * j + 16 ≤ blob.length → windowBlock s w (48 + 16 * j) = blockAt (blobCiphertext blob) j := by
  refine ⟨windowBlock_eq_firstBytes_drop hbytes hlen, fun j hj => ?_⟩
  rw [windowBlock_eq_firstBytes_drop hbytes hj, blockAt, blobCiphertext, List.drop_drop]

end

theorem State.message_drop_congr {s u : State} (hlen : u.msgLen = s.msgLen) {n : Nat}
    (h : ∀ k, n ≤ k → k < s.msgLen.toNat → u.windowByte .din k = s.windowByte .din k) :
    u.message.drop n = s.message.drop n := by
  refine List.ext_getElem (by simp [hlen]) fun k _ hk => ?_
  rw [List.length_drop, State.message_length] at hk
  simpa [State.message, State.windowByte] using h (n + k) (Nat.le_add_right ..) (by omega)

theorem blobCiphertext_getD (blob : List Byte) (k : Nat) : (blobCiphertext blob).getD k 0 = blob.getD (48 + k) 0 := by
  simp only [blobCiphertext, List.getD_eq_getElem?_getD, List.getElem?_drop]

/-- The blob's ciphertext in DIN, byte by byte. -/
theorem State.blobCiphertext_message_getD (s : State) : ∀ k < (blobCiphertext s.message).length,
    (blobCiphertext s.message).getD k 0 = s.windowByte .din (48 + k) := fun k hk => by
  rw [blobCiphertext, List.length_drop] at hk
  rw [blobCiphertext_getD, s.windowByte_din_eq_message _ (by omega)]

/-- The blob AE_ENCRYPT builds, by its fields, with the keys as the rules derive them (R562). -/
theorem State.blob_fields {s : State} (h : EncryptPasses s) (hs : Bool) :
    blobSalt (s.blob hs) = s.encryptSalt hs ∧
      blobCiphertext (s.blob hs) =
        cbcEncrypt (schedule (derivedKeys (password s) (s.encryptSalt hs).toList s.iter.toNat).ck) 10
          (derivedKeys (password s) (s.encryptSalt hs).toList s.iter.toNat).iv s.message ∧
      blobTag (s.blob hs) =
        hmac (derivedKeys (password s) (s.encryptSalt hs).toList s.iter.toNat).ak.toList
          ((s.encryptSalt hs).toList ++ blobCiphertext (s.blob hs)) := by
  obtain ⟨hv, -, -, -, hi⟩ := h
  have hiter : 0 < s.iter.toNat := by bv_omega
  obtain ⟨tag, ct, hblob, htag, hct⟩ := aeBlob_parts s.keyBytes (s.encryptSalt hs) s.iter.toNat s.message
  obtain ⟨hbtag, hbsalt, hbct⟩ := Machine.blob_fields tag (s.encryptSalt hs) ct
  rw [deriveKeys_eq_derivedKeys _ _ hiter, State.keyBytes_eq_password_of_valid hv] at htag hct
  rw [State.blob, hblob, hbtag, hbsalt, hbct]
  exact ⟨rfl, hct, htag⟩

theorem State.blob_length (s : State) (hs : Bool) : (s.blob hs).length = 48 + 16 * paddedBlocks s.msgLen.toNat := by
  rw [State.blob, aeBlob_length, s.message_length, paddedBlocks]

/-- A blob of a message that fits DIN fits DOUT. -/
theorem State.blob_length_le {s : State} (hm : MessageFits s) (hs : Bool) :
    (s.blob hs).length ≤ s.params.doutBytes := by
  rw [MessageFits] at hm
  rw [s.blob_length, paddedBlocks, Params.doutBytes]
  omega

end Sys2Proof.Machine

open Sys2Proof Sys2Proof.Machine Sys2Proof.Spec

/-- Settles O54: DOUT holds the blob, whose fields are those of `State.blob_fields`. -/
theorem aeEncryptBuildsTheWireBlob : Obligations.AeEncryptBuildsTheWireBlob := by
  intro s hs hp hpass n salt d
  obtain ⟨hsalt, hct, htag⟩ : blobSalt (s.blob hs) = salt ∧
      blobCiphertext (s.blob hs) = cbcEncrypt (schedule d.ck) 10 d.iv s.message ∧
      blobTag (s.blob hs) = hmac d.ak.toList (salt.toList ++ blobCiphertext (s.blob hs)) := State.blob_fields hpass hs
  have hlen : (s.blob hs).length = 48 + 16 * n := s.blob_length hs
  have hdout := s.windowByte_dout_writeBlob_finish (s.blob hs) (s.drawsAfter hs) 0 0
  have hbytes := fun k hk => (hdout k).trans (if_pos hk)
  obtain ⟨hwtag, -, hwct⟩ := windowBytes_blob hbytes (by omega)
  obtain ⟨hwsalt, hwblock⟩ := windowBlock_blob hbytes (by omega)
  rw [hlen, Nat.add_sub_cancel_left] at hwct
  have hchain := cbcEncrypt_chain (schedule d.ck) 10 d.iv s.message
  rw [s.message_length, ← hct] at hchain
  refine ⟨(s.writeBlob _ _).clearSchedule.finish 0 0, exec_ok (i := .aeEncrypt hs) (aeEncryptResult_of_passes hpass hs),
    ?_, hwsalt.trans hsalt, ?_, ?_, ?_⟩
  · rw [← hlen]
    cases hs <;> rfl
  · exact cbcChain_congr (fun j => blockAt_pad_message s) (fun j hj => (hwblock j (by omega)).symm) hchain
  · rw [hwtag, htag, hwct]
  · exact fun k hk => (hdout k).trans (if_neg (by omega))

/-- Settles O57: the message of AE_DECRYPT is the blob of AE_ENCRYPT, which opens to the plaintext. -/
theorem aeDecryptUndoesAeEncrypt : Obligations.AeDecryptUndoesAeEncrypt := by
  intro s t u hs hp hpass h hparams hkeyLen hkey hiter hmsgLen hum hdin
  obtain rfl := eq_finish_of_exec (i := .aeEncrypt hs) (aeEncryptResult_of_passes hpass hs) h
  obtain ⟨hv, -, hm, -, hi⟩ := hpass
  have houtLen : u.msgLen.toNat = (s.blob hs).length := by
    rw [hmsgLen]
    exact toNat_outLen hp (State.blob_length_le hm hs)
  have hmsg : u.message = s.blob hs :=
    State.message_eq_of_din houtLen fun k hk => by
      rw [hdin k (by rwa [← hmsgLen, houtLen])]
      exact (s.windowByte_dout_writeBlob_finish _ _ 0 0 k).trans (if_pos hk)
  have hlen := s.blob_length hs
  have hpass : DecryptPasses u := by
    refine ⟨?_, hum, ?_, ?_, hiter ▸ hi⟩
    · rwa [KeyLenValid, hkeyLen]
    · rw [houtLen, hlen]; omega
    · rw [houtLen, hlen, paddedBlocks]; omega
  have hresult : aeDecryptResult u = .ok (u.writeOutput s.message) := by
    rw [aeDecryptResult_of_passes hpass, State.keyBytes_congr hkeyLen hkey, hiter, hmsg, State.blob, aeOpen_aeBlob]
    rfl
  refine ⟨_, exec_ok (i := .aeDecrypt) hresult, rfl, s.ofNat_message_length, fun k hk => ?_⟩
  refine (u.windowByte_dout_writeOutput_clearSchedule_finish _ 0 0 k).trans ?_
  rw [s.message_length, if_pos hk, s.message_getD k hk]

/-- Settles O55: the tag decides first, then the padding of the decrypted ciphertext. -/
theorem aeDecryptAuthenticatesThenDecrypts : Obligations.AeDecryptAuthenticatesThenDecrypts := by
  intro s hp hpass len salt d tagRight q
  have ⟨hv, hm, h16, h64, hi⟩ := hpass
  have hmlen := s.message_length
  have hiter : 0 < s.iter.toNat := by bv_omega
  obtain ⟨hwtag, hwsalt, hwct⟩ := windowBytes_blob s.windowByte_din_eq_message (by omega)
  rw [hmlen] at hwct
  have hctlen : (blobCiphertext s.message).length = len := by
    rw [← hwct, windowBytes, List.length_map, List.length_range]
  have hd : deriveKeys s.keyBytes (blobSalt s.message).toList s.iter.toNat = d := by
    rw [deriveKeys_eq_derivedKeys _ _ hiter, State.keyBytes_eq_password_of_valid hv, ← hwsalt]
  have htag : tagRight ↔ blobTag s.message = expectedTag s.keyBytes s.iter.toNat s.message := by
    rw [expectedTag, hd, ← Vector.toList_inj, ← hwtag, ← hwsalt, ← hwct]
  have hplain : decryptedBlob s.keyBytes s.iter.toNat s.message =
      cbcDecrypt (schedule d.ck) 10 d.iv (blobCiphertext s.message) := by rw [decryptedBlob, hd]
  have hbytes := s.blobCiphertext_message_getD
  refine ⟨fun hw => ?_, fun ht hpad => ?_, fun ht hpad => ?_⟩
  · refine exec_error (i := .aeDecrypt) (e := .integrityFailure) ?_
    rw [resultOf, aeDecryptResult_of_passes hpass, aeOpen_of_wrong_tag (mt htag.2 hw)]
    rfl
  · have hnone := cbcDecrypt_eq_none (schedule d.ck) 10 d.iv hbytes (by omega) (by omega) (hctlen ▸ hpad)
    refine exec_error (i := .aeDecrypt) (e := .paddingError) ?_
    rw [resultOf, aeDecryptResult_of_passes hpass, aeOpen_of_right_tag (htag.1 ht), hplain, hnone]
    rfl
  · obtain ⟨r, hr, hrlen, hrbytes⟩ :=
      cbcDecrypt_eq_some (schedule d.ck) 10 d.iv hbytes (by omega) (by omega) (hctlen ▸ hpad)
    have hresult : aeDecryptResult s = .ok (s.writeOutput r) := by
      rw [aeDecryptResult_of_passes hpass, aeOpen_of_right_tag (htag.1 ht), hplain, hr]
      rfl
    have hdout := s.windowByte_dout_writeOutput_clearSchedule_finish r 0 0
    rw [hctlen] at hrlen
    refine ⟨_, exec_ok (i := .aeDecrypt) hresult, ?_, fun k hk => ?_, fun k hk => ?_⟩
    · rw [← hrlen]
      rfl
    · exact (hdout k).trans ((if_pos (hrlen ▸ hk)).trans (hrbytes k (hrlen ▸ hk)))
    · exact (hdout k).trans (if_neg (hrlen ▸ Nat.not_lt.2 hk))

/-- Settles O58: the expected tag does not depend on the tag field. -/
theorem tamperedTagIsRejected : Obligations.TamperedTagIsRejected := by
  intro s t u h hcode hparams hkeyLen hkey hiter hmsgLen hsame hdiff
  obtain ⟨v, hv, -⟩ | ⟨e, -, rfl⟩ := exec_cases h
  case inr => exact absurd hcode e.code_ne_zero
  obtain ⟨hcheck, m, hopen, -⟩ := aeDecryptResult_ok hv
  rw [aeDecryptCheck_eq_none_iff] at hcheck
  obtain ⟨hkv, hm, h16, h64, hi⟩ := hcheck
  have hpass : DecryptPasses u := by
    refine ⟨?_, ?_, hmsgLen ▸ h16, hmsgLen ▸ h64, hiter ▸ hi⟩
    · rwa [KeyLenValid, hkeyLen]
    · rwa [MessageFits, hmsgLen, hparams]
  have htail (n : Nat) (hn : 32 ≤ n) : u.message.drop n = s.message.drop n :=
    State.message_drop_congr hmsgLen fun k hk => hsame k (hn.trans hk)
  have hsalt : blobSalt u.message = blobSalt s.message := by rw [blobSalt, htail 32 (by decide), blobSalt]
  have hct : blobCiphertext u.message = blobCiphertext s.message := by
    rw [blobCiphertext, htail 48 (by decide), blobCiphertext]
  have htag : blobTag u.message ≠ blobTag s.message := fun heq => by
    obtain ⟨k, hk, hne⟩ := hdiff
    have hbyte := congrArg (·[k]?) heq
    simp only [blobTag, firstBytes_getElem? 32 _ k hk, Option.some.injEq] at hbyte
    rw [u.message_getD k (hmsgLen ▸ by omega), s.message_getD k (by omega)] at hbyte
    exact hne hbyte
  have hwrong : blobTag u.message ≠ expectedTag u.keyBytes u.iter.toNat u.message := by
    rw [expectedTag, State.keyBytes_congr hkeyLen hkey, hiter, hsalt, hct, ← expectedTag, ← blobTag_eq_of_aeOpen hopen]
    exact htag
  refine exec_error (i := .aeDecrypt) (e := .integrityFailure) ?_
  rw [resultOf, aeDecryptResult_of_passes hpass, aeOpen_of_wrong_tag hwrong]
  rfl

end

section
/-! AE_ENCRYPT as the composition of the primitive commands (46_ae_api.md R570): what each command leaves to the next,
up to the tag over the ciphertext. -/

namespace Sys2Proof.Machine

open Sys2Proof.Spec

/-- The keys that KDF derives from the operands of s (R513, R520). -/
def State.kdfKeys (s : State) : DerivedKeys := derivedKeys (password s) s.salt.toList s.iter.toNat

/-- t still has the salt and the message of s. -/
structure State.SameInputs (s t : State) : Prop where
  params : t.params = s.params
  salt : t.salt = s.salt
  msgLen : t.msgLen = s.msgLen
  message : t.message = s.message

theorem State.SameInputs.trans {s t u : State} (h : s.SameInputs t) (h' : t.SameInputs u) : s.SameInputs u :=
  ⟨h'.params.trans h.params, h'.salt.trans h.salt, h'.msgLen.trans h.msgLen, h'.message.trans h.message⟩

theorem State.message_eq_of_fields {s t : State} (hmsgLen : t.msgLen = s.msgLen) (hdin : t.din = s.din)
    (hepoch : t.epoch = s.epoch) : t.message = s.message :=
  State.message_congr hmsgLen fun k _ => by simp only [State.windowByte, State.dinByte, hdin, hepoch]

/-- No command writes an input (R303). -/
theorem exec_sameInputs {i : Instr} {s t : State} (h : exec i s = .next t) : s.SameInputs t := by
  obtain ⟨⟨hparams, -, -, -, -, hmsgLen, -, -, -, hsalt, -, hdin, -, -, hepoch⟩, -⟩ :=
    commandsChangeOnlyTheirOutputs i s t h
  exact ⟨hparams, hsalt, hmsgLen, State.message_eq_of_fields hmsgLen hdin hepoch⟩

/-- KDF derives the three keys (R520). -/
theorem exec_kdf_of_passes {s a : State} (hpass : EncryptPasses s) (h : exec .kdf s = .next a) :
    a.dkCk = s.kdfKeys.ck ∧ a.dkAk = s.kdfKeys.ak ∧ a.dkIv = s.kdfKeys.iv := by
  obtain ⟨hv, -, -, -, hi⟩ := hpass
  have hlen := State.keyLen_toNat_of_valid hv
  have hsalt : windowBytes s .salt 0 16 = s.salt.toList := windowBytes_eq_toList fun _ => rfl
  have hresult : kdfResult s = .ok (s.withDerivedKeys s.kdfKeys) := by
    rw [kdfResult_of_checks (by omega) hi, hsalt, State.kdfKeys]
  obtain rfl := eq_finish_of_exec (i := .kdf) hresult h
  exact ⟨rfl, rfl, rfl⟩

/-- KEY_EXPAND of a 16-byte key copied into KEY loads the schedule of the AE commands, with 10 rounds (R425, R567). -/
theorem exec_keyExpand_of_copy {s b : State} {ck : Block} (hlen : s.keyLen = 16)
    (hkey : ∀ k < 16, s.windowByte .key k = (ck[k]?).getD 0) (h : exec .keyExpand s = .next b) :
    b.rk = schedule ck ∧ b.nr = 10 ∧ b.ksValid = true ∧ b.dkAk = s.dkAk ∧ b.dkIv = s.dkIv := by
  have hnat : s.keyLen.toNat = 16 := by rw [hlen]; rfl
  have hbytes : s.keyBytes = ck.toList := by
    rw [s.keyBytes_eq_map (by omega), hnat, toList_eq_map]
    exact List.map_congr_left fun k hk => hkey k (List.mem_range.1 hk)
  obtain rfl := eq_finish_of_exec (i := .keyExpand) (keyExpandResult_of_valid (.inl hlen)) h
  refine ⟨?_, ?_, rfl, rfl, rfl⟩
  · exact congrArg (fun key => loadSchedule (keyExpansion key)) hbytes
  · exact congrArg (fun n => BitVec.ofNat 8 (roundCount (n / 4))) hnat

/-- CBC_ENC leaves the ciphertext in DOUT and its length in OUT_LEN (R480). -/
theorem exec_cbcEnc_of_fits {s c : State} (hks : s.ksValid = true) (hm : MessageFits s)
    (h : exec .cbcEnc s = .next c) :
    c.outLen = BitVec.ofNat 32 (cbcEncrypt s.rk s.nr.toNat s.iv s.message).length ∧
      (∀ k < (cbcEncrypt s.rk s.nr.toNat s.iv s.message).length,
        c.windowByte .dout k = (cbcEncrypt s.rk s.nr.toNat s.iv s.message).getD k 0) ∧
      c.dkAk = s.dkAk := by
  obtain rfl := eq_finish_of_exec (i := .cbcEnc) (cbcEncResult_of_fits hks hm) h
  exact ⟨rfl, fun k hk => (s.windowByte_dout_writeOutput_finish _ 0 0 k).trans (if_pos hk), rfl⟩

/-- TAG_COMPUTE writes the tag of SALT and the message (R540). -/
theorem exec_tagCompute_of_fits {s d : State} (hm : MessageFits s) (h : exec .tagCompute s = .next d) :
    d.tag = hmac s.dkAk.toList (s.salt.toList ++ s.message) ∧ d.outLen = s.outLen ∧
      ∀ k, d.windowByte .dout k = s.windowByte .dout k := by
  obtain rfl := eq_finish_of_exec (i := .tagCompute) (tagComputeResult_of_fits hm) h
  exact ⟨rfl, rfl, fun _ => rfl⟩

/-- After KDF, KEY_EXPAND of DK_CK and the copy of DK_IV, the engine stands ready to encrypt as AE_ENCRYPT does. -/
theorem ready_of_kdf_keyExpand {s a a' b b' : State} (hpass : EncryptPasses s) (hkdf : exec .kdf s = .next a)
    (hkey : ∀ k < 16, a'.windowByte .key k = a.windowByte .dkCk k)
    (ha' : a' = { a with key := a'.key, keyLen := 16 }) (hexpand : exec .keyExpand a' = .next b)
    (hb' : b' = { b with iv := b.dkIv }) :
    b'.rk = schedule s.kdfKeys.ck ∧ b'.nr = 10 ∧ b'.ksValid = true ∧ b'.iv = s.kdfKeys.iv ∧
      b'.dkAk = s.kdfKeys.ak ∧ s.SameInputs b' := by
  obtain ⟨hck, hak, hiv⟩ := exec_kdf_of_passes hpass hkdf
  have hcopyA : a.SameInputs a' ∧ a'.keyLen = 16 ∧ a'.dkAk = a.dkAk ∧ a'.dkIv = a.dkIv := by
    rw [ha']
    exact ⟨⟨rfl, rfl, rfl, rfl⟩, rfl, rfl, rfl⟩
  obtain ⟨hinputsA, hkeyLen, hakA, hivA⟩ := hcopyA
  obtain ⟨hrk, hnr, hks, hakB, hivB⟩ := exec_keyExpand_of_copy hkeyLen hkey hexpand
  subst hb'
  refine ⟨hck ▸ hrk, hnr, hks, hivB.trans (hivA.trans hiv), hakB.trans (hakA.trans hak), ?_⟩
  exact ((exec_sameInputs hkdf).trans hinputsA).trans ((exec_sameInputs hexpand).trans ⟨rfl, rfl, rfl, rfl⟩)

/-- After CBC_ENC and TAG_COMPUTE over its ciphertext: the ciphertext in DOUT, its length in OUT_LEN, its tag in TAG. -/
theorem tag_of_cbcEnc_tagCompute {s c c' d : State} {ct : List Byte} (hp : s.params.wf = true)
    (hct : cbcEncrypt s.rk s.nr.toNat s.iv s.message = ct) (hks : s.ksValid = true) (hm : MessageFits s)
    (hcbc : exec .cbcEnc s = .next c) (hdin : ∀ k < c.outLen.toNat, c'.windowByte .din k = c.windowByte .dout k)
    (hc' : c' = { c with din := c'.din, msgLen := c.outLen }) (hfits : MessageFits c')
    (htag : exec .tagCompute c' = .next d) :
    d.outLen.toNat = ct.length ∧ windowBytes d .dout 0 ct.length = ct ∧ d.salt = s.salt ∧
      d.tag = hmac s.dkAk.toList (s.salt.toList ++ ct) := by
  obtain ⟨houtLen, hdout, hakC⟩ := exec_cbcEnc_of_fits hks hm hcbc
  rw [hct] at houtLen hdout
  have hlen : c.outLen.toNat = ct.length := by
    rw [houtLen]
    refine toNat_outLen hp ?_
    rw [MessageFits] at hm
    rw [← hct, cbcEncrypt_length, s.message_length, Params.doutBytes]
    omega
  have hcopy : c'.msgLen = c.outLen ∧ c'.outLen = c.outLen ∧ c'.salt = c.salt ∧ c'.dkAk = c.dkAk ∧
      ∀ k, c'.windowByte .dout k = c.windowByte .dout k := by
    rw [hc']
    exact ⟨rfl, rfl, rfl, rfl, fun _ => rfl⟩
  obtain ⟨hmsgLen, houtLen', hsalt, hak, hdout'⟩ := hcopy
  obtain ⟨htag', houtLenD, hdoutD⟩ := exec_tagCompute_of_fits hfits htag
  have hsalt' : c'.salt = s.salt := hsalt.trans (exec_sameInputs hcbc).salt
  have hmsg : c'.message = ct :=
    State.message_eq_of_din (hmsgLen ▸ hlen) fun k hk => (hdin k (hlen ▸ hk)).trans (hdout k hk)
  refine ⟨?_, ?_, (exec_sameInputs htag).salt.trans hsalt', ?_⟩
  · rw [houtLenD, houtLen', hlen]
  · rw [windowBytes_eq_take_drop (fun k hk => (hdoutD k).trans ((hdout' k).trans (hdout k hk))) (by omega),
      List.drop_zero, List.take_length]
  · rw [htag', hak, hakC, hsalt', hmsg]

/-- AE_ENCRYPT with HS = 1 leaves the tag, the salt and the ciphertext, one after another (R562). -/
theorem exec_aeEncrypt_true {s e : State} {ct : List Byte} (hp : s.params.wf = true) (hpass : EncryptPasses s)
    (hct : cbcEncrypt (schedule s.kdfKeys.ck) 10 s.kdfKeys.iv s.message = ct)
    (h : exec (.aeEncrypt true) s = .next e) :
    e.errCode = 0 ∧ e.outLen.toNat = 48 + ct.length ∧
      windowBytes e .dout 0 32 = (hmac s.kdfKeys.ak.toList (s.salt.toList ++ ct)).toList ∧
      windowBytes e .dout 32 16 = s.salt.toList ∧ windowBytes e .dout 48 ct.length = ct := by
  obtain ⟨hsalt, hblobct, hblobtag⟩ : blobSalt (s.blob true) = s.salt ∧
      blobCiphertext (s.blob true) = cbcEncrypt (schedule s.kdfKeys.ck) 10 s.kdfKeys.iv s.message ∧
      blobTag (s.blob true) = hmac s.kdfKeys.ak.toList (s.salt.toList ++ blobCiphertext (s.blob true)) :=
    State.blob_fields hpass true
  rw [hct] at hblobct
  rw [hblobct] at hblobtag
  have hlen : (s.blob true).length = 48 + ct.length := by
    rw [s.blob_length, ← hct, cbcEncrypt_length, s.message_length, paddedBlocks]
  have hdout := s.windowByte_dout_writeBlob_finish (s.blob true) (s.drawsAfter true) 0 0
  obtain ⟨hwtag, hwsalt, hwct⟩ := windowBytes_blob (fun k hk => (hdout k).trans (if_pos hk)) (by omega)
  rw [hblobtag] at hwtag
  rw [hsalt] at hwsalt
  rw [hlen, Nat.add_sub_cancel_left, hblobct] at hwct
  obtain rfl := eq_finish_of_exec (i := .aeEncrypt true) (aeEncryptResult_of_passes hpass true) h
  obtain ⟨-, -, hm, -⟩ := hpass
  exact ⟨rfl, (toNat_outLen hp (State.blob_length_le hm true)).trans hlen, hwtag, hwsalt, hwct⟩

end Sys2Proof.Machine

open Sys2Proof Sys2Proof.Machine Sys2Proof.Spec

/-- Settles O59: the primitives' ciphertext and tag are the fields of the blob. -/
theorem aeEncryptIsTheCompositionOfPrimitives : Obligations.AeEncryptIsTheCompositionOfPrimitives := by
  intro s a a' b b' c c' d e hp hpass hkdf hkey ha' hexpand hb' hcbc hdin hc' hfits htag henc
  have ⟨_, _, hm, _⟩ := hpass
  obtain ⟨hrk, hnr, hks, hiv, hak, hinputs⟩ := ready_of_kdf_keyExpand hpass hkdf hkey ha' hexpand hb'
  have hct : cbcEncrypt b'.rk b'.nr.toNat b'.iv b'.message =
      cbcEncrypt (schedule s.kdfKeys.ck) 10 s.kdfKeys.iv s.message := by
    rw [hrk, hnr, hiv, hinputs.message]
    rfl
  obtain ⟨houtLen, hdout, hsalt, htag⟩ := tag_of_cbcEnc_tagCompute (hinputs.params ▸ hp) hct hks
    (by rwa [MessageFits, hinputs.params, hinputs.msgLen]) hcbc hdin hc' hfits htag
  obtain ⟨hcode, hlen, hetag, hesalt, hect⟩ := exec_aeEncrypt_true hp hpass rfl henc
  rw [hak, hinputs.salt] at htag
  rw [hinputs.salt] at hsalt
  rw [houtLen, htag, hsalt, hdout]
  exact ⟨hcode, hlen, hetag, hesalt, hect⟩

end
